-- ==== Sys2Proof/Word.lean ====
section
/-!
DEFINITION. The words of the Urcenta UG12: the byte of its links and the text of its records.

The part is a block of records and has no word size of its own. Bit vectors stand where the manual treats a value as
bits (the bytes of a frame, the 16-bit check, the 16-bit tag); counts, minutes and record numbers are `Nat` or `Fin`.
-/

namespace Sys2Proof

/-- One byte of a server link, lane link or sign channel frame. -/
abbrev Byte := BitVec 8

/-- A tag of a request, or the check of a frame (R219). -/
abbrev Word16 := BitVec 16

/-- A text held by the part (00_scope, Text): the ASCII codes of its characters, in order. -/
abbrev Text := List Nat

/-- The text spelled by a string of ASCII characters. -/
def Text.of (t : String) : Text := t.toList.map Char.toNat

end Sys2Proof
end

