-- ==== Sys2Proof/Config.lean ====
section
/-!
DEFINITION. What the manual fixes for every UG12 (sizes, largest values), and the free bytes that stand where the
manual gives an effect and states no value.
-/

namespace Sys2Proof

/-- The largest gate minute, 4,294,967,295 (R28, R30, R214). -/
def Config.maxMinute : Nat := 4294967295

/-- The largest value of the saturating counts: link errors (R202), superseded and late scans (R123), sign faults
(R193). -/
def Config.countMax : Nat := 65535

/-- Record slots of the Booking Book (R1). -/
def Config.bookSlots : Nat := 8192

/-- Buckets of the booking index (R5). -/
def Config.buckets : Nat := 16384

/-- Places of the request queue and of the response queue (R202, R203). -/
def Config.queuePlaces : Nat := 16

/-- A free byte: the manual gives the transfer or the response a byte here and does not state its value. Nothing
constrains it (notes/assumptions/20). -/
opaque Config.freeByte : Nat → Byte

/-- `n` free bytes, drawn at the model's counter `k`. -/
def Config.freeBytes (k n : Nat) : List Byte := (List.range n).map fun i => Config.freeByte (k + i)

end Sys2Proof
end

