-- ==== Sys2Proof/Syntax.lean ====
section
/-!
DEFINITION. The commands of the block: one constructor of `Instr` per row of spec/opcode_table.json, with the
operands that the outside world gives at that step.

The UG12 is a block, not a processor. A row is one of the part's steps, each whole and indivisible
(95_what_each_step_holds.md). Four kinds of step stand in the table. A transfer on the server link and a line of a
pin carry what the outside drives. An event on a lane link, a loop line or a sign channel names its lane and carries
what arrived. The start of a host request carries no operand: its fields stand in the oldest frame of the request
queue, which the step takes and decodes (R203, R204). A step that the part takes by itself (a grant, a completion, an
expiry) carries at most its lane.
-/

namespace Sys2Proof

/-- A lane. Lane number n of the manual (1 to 12) is `n - 1` here. -/
abbrev Lane := Fin 12

/-- The three loop sensors of a lane (R43, points 0 to 2). -/
inductive Loop where
  | entry
  | stop
  | exit
  deriving DecidableEq, Repr

/-- A character received on a serial link: its byte, and whether its stop bit was missing (the serial framing fault of
R51 and the Pins summary). -/
structure RxChar where
  byte : Byte
  fault : Bool := false
  deriving DecidableEq, Repr

/-- The commands, in the order of spec/opcode_table.json. -/
inductive Instr where
  /-- REQUEST_FRAME_ARRIVAL: SCS is released at the end of a WRITE transfer that carried these bytes after its
  operation byte. -/
  | requestFrameArrival (bytes : List Byte)
  /-- READ_TRANSFER: a READ transfer in which `clocked` bytes were shifted out before SCS was released. -/
  | readTransfer (clocked : Nat)
  /-- TRANSFER_OPERATION_ERROR: a transfer with operation byte `op`, and `clocked` further bytes. -/
  | transferOperationError (op : Byte) (clocked : Nat)
  /-- LINK_RESET_ASSERT: LRST goes low; `inTransfer` says whether SCS is asserted at that moment. -/
  | linkResetAssert (inTransfer : Bool)
  | linkResetRelease
  | prstAssert
  | powerOn
  | tickEvent
  | minuteEvent
  | unknownRequest
  | status
  | changeNext
  | attnEnableSet
  | attnEnableClear
  | gateRestart
  | timeSet
  | tickSet
  | bookCreate
  | bookAmend
  | bookCancel
  | bookRetire
  | bookQuery
  | bookScan
  | windowPlan
  | windowSet
  | windowSetAllowances
  | defaultQuota
  | windowQuery
  | laneMode
  | laneSet
  | laneAbort
  | laneReset
  | pointWrite
  | pointRead
  | laneFlagsClear
  | visitQuery
  | visitClose
  | visitDecide
  | checkSet
  | sealSet
  | mixSet
  | graderStatus
  | blockSet
  | blockQuery
  | groupSet
  | baySet
  | legDone
  | signSet
  | indexEngineGrant
  | indexOperationComplete
  | identificationComplete
  | catchUpRetirement
  /-- LOOP_EVENT: the sensor of `loop` drives its line to `level` (true is occupied). -/
  | loopEvent (lane : Lane) (loop : Loop) (level : Bool)
  /-- LANE_FRAME_ARRIVAL: the characters of one lane link frame, from its start mark to its end mark. -/
  | laneFrameArrival (lane : Lane) (chars : List RxChar)
  | laneFrameTake (lane : Lane)
  | approachLimitExpiry (lane : Lane)
  | settleExpiry (lane : Lane)
  | cardLimitExpiry (lane : Lane)
  | holdTimeout (lane : Lane)
  | yardWaitLimitExpiry (lane : Lane)
  | clearLimitExpiry (lane : Lane)
  | refreshEvent (lane : Lane)
  | replyTimerExpiry (lane : Lane)
  /-- SIGN_REPLY: the characters of one reply frame on the lane's reply line. -/
  | signReply (lane : Lane) (chars : List RxChar)
  | gradingEngineTake
  | gradingCompletion
  | frameCutShort (lane : Lane)
  deriving DecidableEq, Repr

end Sys2Proof
end

