-- ==== Sys2Proof/Decode.lean ====
section
/-!
DEFINITION. The command that a word of spec/opcode_table.json spells.

No row of the table gives bits ("fields" is empty and no row has "fixed"), so no word spells a command. The frames
that the part itself decodes (R204, R219 to R221) are decoded in Machine/Frames.lean and Machine/Operands.lean.
-/

namespace Sys2Proof

/-- The command a word of `nbits` bits spells: none, since no row of the table gives a bit. -/
def decodeTableWord (_nbits _w : Nat) : Option Instr := none

end Sys2Proof
end

