-- ==== Sys2Proof/Machine/State.lean ====
section
/-!
DEFINITION. The state of the UG12 as plain data, the reasons a step can stop, and the state after power-on.

Each block's state is one structure, named after the block. Records that belong to an open visit (its read sets of
CHK, its stability state of DGR) stand in the visit's record, since they are made and discarded with it (R87).
Three things the manual names are views and not fields: a lane's IDLE, BLOCKED, OCCUPIED or CLOSED (R65), a text's
check result (R96), and every output line (R45, R201, R210). They are computed in Machine/Flags.lean from the fields
that decide them, so that they follow their conditions at once.
-/

namespace Sys2Proof.Machine

/-! ### The Booking Book (BKB) -/

/-- The four kinds of a booking (R1). -/
inductive Kind where
  | exportFull
  | emptyReturn
  | importPickup
  | emptyPickup
  deriving DecidableEq, Repr

/-- One value for each of the four kinds (R26). -/
structure PerKind where
  exportFull : Nat
  emptyReturn : Nat
  importPickup : Nat
  emptyPickup : Nat
  deriving DecidableEq, Repr

/-- The four states of a live booking (R3). -/
inductive BookingState where
  | booked
  | inLane
  | admitted
  | noShow
  deriving DecidableEq, Repr

/-- The condition a shipper declared (R1). -/
inductive Declared where
  | sound
  | damaged
  deriving DecidableEq, Repr

/-- The name of a visit: its slot and the generation of the slot when the visit was opened (R61). -/
structure Handle where
  slot : Fin 64
  gen : Fin 16
  deriving DecidableEq, Repr

/-- A live booking record (R1). Ranges that BOOK_CREATE and BOOK_AMEND judge (R2) are numbers here. -/
structure Booking where
  ref : Text
  kind : Kind
  state : BookingState
  window : Option Nat
  teu : Nat
  container : Option Text
  plate : Option Text
  seals : List Text
  declared : Option Declared
  group : Option Nat
  block : Option Nat
  visit : Option Handle
  deriving DecidableEq, Repr

/-- The book: live records by slot, index entries by bucket (both sparse, keys strictly rising), and the two counts
(R1, R5, R6). -/
structure Book where
  records : List (Nat × Booking)
  index : List (Nat × Nat)
  live : Nat
  noShow : Nat
  deriving DecidableEq, Repr

/-- An identification operation: the visit that started it and the prepared list of references (R90). -/
structure Ident where
  handle : Handle
  refs : List Text
  deriving DecidableEq, Repr

/-- The operation in flight on the index engine: SLK's booking request, or a lane's identification (R9, R10). -/
inductive EngineOp where
  | host
  | lane (lane : Lane) (op : Ident)
  deriving DecidableEq, Repr

/-- The index engine (R9): the last-granted requester (0 is SLK, n is lane n), the operation in flight, and the lanes'
waiting operations. SLK waits exactly when its request in execution is a booking request that is not in flight. -/
structure Engine where
  lastGranted : Fin 13
  inFlight : Option EngineOp
  waiting : Vector (Option Ident) 12
  deriving DecidableEq, Repr

/-! ### The Window Ring (WRG) -/

/-- One window entry (R26). -/
structure Window where
  start : Nat
  quota : PerKind
  booked : PerKind
  arrived : PerKind
  deriving DecidableEq, Repr

/-- The ring and its settings (R25): L (absent with no plan), the entries oldest first, the default quotas, E, G, R. -/
structure Ring where
  length : Option Nat
  windows : List Window
  defaults : PerKind
  early : Nat
  grace : Nat
  reach : Nat
  deriving DecidableEq, Repr

/-! ### The Time Base (TBS) -/

/-- The time base (R213, R214). `minuteDue` is a minute event given and not yet taken by the Window Ring (R29). -/
structure TimeBase where
  refCount : Nat
  fine : Nat
  d : Nat
  f : Nat
  pendD : Nat
  pendF : Nat
  phase : Nat
  minute : Nat
  clockSet : Bool
  minuteDue : Bool
  deriving DecidableEq, Repr

/-! ### Lane points, lane links and the lane sequencer (LU) -/

/-- The lane modes (R65). -/
inductive Mode where
  | auto
  | manual
  | closed
  deriving DecidableEq, Repr

/-- The lane states (R65). -/
inductive LaneState where
  | idle
  | blocked
  | occupied
  | releasing
  | closed
  deriving DecidableEq, Repr

/-- One point's direction (`drive` true is DRIVE) and latch (R43). -/
structure Point where
  drive : Bool
  latch : Bool
  deriving DecidableEq, Repr

/-- The levels of a lane's three loop lines (R44); true is occupied. -/
structure Loops where
  entry : Bool
  stop : Bool
  exit : Bool
  deriving DecidableEq, Repr

/-- The two container positions. -/
inductive Pos where
  | one
  | two
  deriving DecidableEq, Repr

/-- One value for each position. -/
structure PosPair (α : Type) where
  one : α
  two : α
  deriving DecidableEq, Repr

/-- One value for each face of a scan, in the order LEFT, RIGHT, FRONT, REAR, ROOF (R50). -/
structure Faces (α : Type) where
  left : α
  right : α
  front : α
  rear : α
  roof : α
  deriving DecidableEq, Repr

/-- A face record: deformation, breach, stain and coverage (R50). -/
structure Face where
  d : Nat
  b : Nat
  s : Nat
  c : Nat
  deriving DecidableEq, Repr

/-- A lane link frame's contents, its texts normalised (R50). -/
inductive LaneFrame where
  | plate (text : Text) (conf : Nat)
  | card (refs : List Text)
  | container (pos : Pos) (text : Text) (conf : Nat)
  | sealRead (pos : Pos) (text : Text) (conf : Nat)
  | scan (pos : Pos) (size : Nat) (faces : Faces Face)
  deriving DecidableEq, Repr

/-- The four link flags of a lane (R55). -/
structure LinkFlags where
  overrun : Bool
  frameError : Bool
  checkError : Bool
  stray : Bool
  deriving DecidableEq, Repr

/-- The eight limits of a lane, in ticks (R70). -/
structure Limits where
  approach : Nat
  settle : Nat
  card : Nat
  hold : Nat
  yardWait : Nat
  clear : Nat
  refresh : Nat
  signReply : Nat
  deriving DecidableEq, Repr

/-- The limits a dwell timer is loaded from (R68). -/
inductive LimitKind where
  | approach
  | settle
  | card
  | hold
  | yardWait
  | clear
  deriving DecidableEq, Repr

/-- The form of a dwell timer (R67). -/
inductive TimerForm where
  | stopped
  | oneShot
  | repeating
  deriving DecidableEq, Repr

/-- The dwell timer (R67): its form, its count (0 while stopped), the limit it was last loaded from, and the expiries
that have happened and have not been taken (R68: a load or a stop leaves them behind). -/
structure Dwell where
  form : TimerForm
  count : Nat
  limit : LimitKind
  due : Nat
  deriving DecidableEq, Repr

/-- A Lane Unit (R43 to R89). `releasing` is lane state RELEASING; `resident` is the slot of the resident visit.
`refresh` counts down to the next refresh event and `refreshDue` are refresh events not yet taken (R69). -/
structure LaneUnit where
  mode : Mode
  resident : Option (Fin 64)
  releasing : Bool
  closing : Bool
  entryCleared : Bool
  exitSeen : Bool
  clearOverdue : Bool
  dwell : Dwell
  refresh : Nat
  refreshDue : Nat
  limits : Limits
  points : Vector Point 7
  buffer : List LaneFrame
  flags : LinkFlags
  deriving DecidableEq, Repr

/-! ### The Visit Table (VTB), with the read sets of CHK and the stability state of DGR -/

/-- The states of a visit (R62). -/
inductive VisitState where
  | entering
  | checking
  | held
  | yardWait
  | directing
  | releasing
  | enRoute
  | rejected
  deriving DecidableEq, Repr

/-- The card field of a visit (R62). -/
inductive CardField where
  | none
  | pending
  | done
  deriving DecidableEq, Repr

/-- The set of visit reasons (R146), one mark for each. -/
structure Reasons where
  approachTimeout : Bool
  noCard : Bool
  cardUnreadable : Bool
  teuLimit : Bool
  plateMismatch : Bool
  plateUnread : Bool
  linkLoss : Bool
  noYardSpace : Bool
  deriving DecidableEq, Repr

/-- The release outcomes (R62). -/
inductive ReleaseOutcome where
  | admission
  | turnAway
  | holdTimeout
  deriving DecidableEq, Repr

/-- The decision sources (R62). -/
inductive DecisionSource where
  | auto
  | server
  deriving DecidableEq, Repr

/-- The reject reasons (R62). -/
inductive RejectReason where
  | turnAway
  | holdTimeout
  | aborted
  | laneReset
  | restart
  deriving DecidableEq, Repr

/-- The window outcomes of a leg (R63). -/
inductive WindowOutcome where
  | onTime
  | transferred
  | early
  | late
  | noWindow
  deriving DecidableEq, Repr

/-- The container verdicts of a leg (R63). -/
inductive ContainerVerdict where
  | matched
  | mismatch
  | checkFail
  | notRead
  | notApplicable
  deriving DecidableEq, Repr

/-- The seal verdicts of a leg, in the order of R116's table, and NOT_APPLICABLE (R63). -/
inductive SealVerdict where
  | unread
  | noneExpected
  | unexpected
  | mismatch
  | missing
  | weak
  | intact
  | notApplicable
  deriving DecidableEq, Repr

/-- The damage verdicts of a leg (R63, R138). -/
inductive DamageVerdict where
  | pass
  | passDeclared
  | flag
  | notApplicable
  deriving DecidableEq, Repr

/-- The leg exceptions (R145). A leg carries at most one. -/
inductive LegException where
  | notFound
  | duplicateUse
  | alreadyAdmitted
  | noShow
  deriving DecidableEq, Repr

/-- The dispositions of a leg (R63). -/
inductive Disposition where
  | pending
  | yard
  | inspect
  | dropped
  deriving DecidableEq, Repr

/-- The destination of a leg (R63). -/
inductive Dest where
  | block (b : Fin 48)
  | bay (b : Fin 4)
  deriving DecidableEq, Repr

/-- A text with the best confidence received for it: an entry of a plate, container or seal read set (R95, R96,
R109). A container entry's check result is computed from its text (R96). -/
structure ReadEntry where
  text : Text
  conf : Nat
  deriving DecidableEq, Repr

/-- A seal read set and its overflow mark (R109, R110). -/
structure SealSet where
  entries : List ReadEntry
  overflow : Bool
  deriving DecidableEq, Repr

/-- How a position was resolved (R99). -/
inductive PosOutcome where
  | resolved (entry : ReadEntry)
  | checkFail (entry : ReadEntry)
  | unread
  deriving DecidableEq, Repr

/-- The outcome of one expected seal, with the matching entry's confidence (R115, R118). -/
inductive SealOutcome where
  | matched (conf : Nat)
  | matchedWeak (conf : Nat)
  | missing
  deriving DecidableEq, Repr

/-- The seal findings of a judged leg (R118). -/
structure SealFindings where
  floor : Nat
  weakOn : Bool
  seals : List (Text × SealOutcome)
  extras : List ReadEntry
  overflow : Bool
  deriving DecidableEq, Repr

/-- The face grades (R129). -/
inductive Grade where
  | clean
  | minor
  | major
  | critical
  | unseen
  deriving DecidableEq, Repr

/-- The classes of a scan or a result (R130), and NOT_SCANNED (R137). -/
inductive DamageClass where
  | clean
  | minor
  | major
  | critical
  | incomplete
  | notScanned
  deriving DecidableEq, Repr

/-- The basis of a result (R131). -/
inductive Basis where
  | settled
  | forced
  deriving DecidableEq, Repr

/-- A position's result (R131). -/
structure PosResult where
  cls : DamageClass
  faces : Faces Grade
  basis : Basis
  size : Nat
  deriving DecidableEq, Repr

/-- A leg's damage result (R137): the class, the position's result where there is one, and the scan count. -/
structure LegDamage where
  cls : DamageClass
  result : Option PosResult
  scans : Nat
  deriving DecidableEq, Repr

/-- A position's stability state (R131). -/
structure Stability where
  scans : Nat
  run : Nat
  previous : Option (Nat × Faces Grade)
  worst : Faces (Option Grade)
  result : Option PosResult
  deriving DecidableEq, Repr

/-- The grading state of a visit (R133). -/
inductive GradingState where
  | isOpen
  | closing
  | closed
  deriving DecidableEq, Repr

/-- A leg record (R63, R118). -/
structure Leg where
  ref : Text
  slot : Option Nat
  kind : Option Kind
  teu : Option Nat
  window : WindowOutcome
  bound : Option Pos
  container : ContainerVerdict
  sealVerdict : SealVerdict
  findings : Option SealFindings
  damage : Option LegDamage
  damageVerdict : DamageVerdict
  exception : Option LegException
  disposition : Disposition
  dest : Option Dest
  done : Bool
  deriving DecidableEq, Repr

/-- A visit record (R62), with its mark of R90 (`unreadable`), its settle-expired condition (R75), its due hold
timeout (R157), its read sets and position outcomes (R95 to R99, R109) and its grading (R131, R133). -/
structure Visit where
  lane : Lane
  state : VisitState
  arrival : Nat
  card : CardField
  plate : Option ReadEntry
  linkLoss : Bool
  reasons : Reasons
  legs : List Leg
  holdStart : Option (Nat × Nat)
  outcome : Option ReleaseOutcome
  source : Option DecisionSource
  rejectReason : Option RejectReason
  signFault : Bool
  unreadable : Bool
  settleExpired : Bool
  timeoutDue : Bool
  plates : List ReadEntry
  containers : PosPair (List ReadEntry)
  seals : PosPair SealSet
  outcomes : Option (PosPair PosOutcome)
  grading : GradingState
  dropLegs : Option Nat
  stability : PosPair Stability
  deriving DecidableEq, Repr

/-- A slot of the Visit Table: its generation, and the visit while the slot is open (R60). -/
structure VisitSlot where
  gen : Fin 16
  visit : Option Visit
  deriving DecidableEq, Repr

/-! ### The Check Unit (CHK) -/

/-- The settings of the Check Unit (R97, R112, R113). -/
structure Check where
  plateFloor : Nat
  containerFloor : Nat
  sealFloor : Nat
  weakOn : Bool
  deriving DecidableEq, Repr

/-! ### The Damage Grader (DGR) -/

/-- One row of the mix matrix: the entries for d, b and s (R127). -/
structure MixRow where
  d : Int
  b : Int
  s : Int
  deriving DecidableEq, Repr

/-- The grading parameters (R139). -/
structure Params where
  dent : MixRow
  hole : MixRow
  rust : MixRow
  wd : Nat
  wh : Nat
  wr : Nat
  t1 : Nat
  t2 : Nat
  t3 : Nat
  floor : Nat
  k : Nat
  deriving DecidableEq, Repr

/-- A scan (R121). -/
structure Scan where
  handle : Handle
  pos : Pos
  size : Nat
  faces : Faces Face
  deriving DecidableEq, Repr

/-- A lane's pending scan slot and its two counts (R122, R123). -/
structure GradeLane where
  pending : Option Scan
  superseded : Nat
  late : Nat
  deriving DecidableEq, Repr

/-- The Damage Grader (R124, R139): the scan in flight with the lane it was taken from. -/
structure Grader where
  params : Params
  inFlight : Option (Lane × Scan)
  lastServed : Lane
  lanes : Vector GradeLane 12
  deriving DecidableEq, Repr

/-! ### The Yard Allocator (YAL) -/

/-- The states of a yard block (R161). -/
inductive BlockState where
  | undefined
  | isOpen
  | closed
  deriving DecidableEq, Repr

/-- What a yard block accepts (R161). -/
inductive Accepts where
  | exportFull
  | emptyReturn
  | both
  deriving DecidableEq, Repr

/-- A yard block (R161). -/
structure Block where
  state : BlockState
  code : Option Text
  accepts : Option Accepts
  capacity : Nat
  occupied : Nat
  reserved : Nat
  route : Option Text
  deriving DecidableEq, Repr

/-- A place of a bay: a visit and one of its legs, numbered 1 or 2 (R166). -/
structure Place where
  handle : Handle
  leg : Nat
  deriving DecidableEq, Repr

/-- An inspection bay (R166). -/
structure Bay where
  code : Text
  route : Text
  isOpen : Bool
  places : List Place
  deriving DecidableEq, Repr

/-- The Yard Allocator: blocks, stack groups, bays and the yard-wait queue, oldest first (R161, R165, R166, R172). -/
structure Yard where
  blocks : Vector Block 48
  groups : Vector (List (Fin 48)) 32
  bays : Vector Bay 4
  queue : List Handle
  deriving DecidableEq, Repr

/-! ### The Sign Units (SGN) -/

/-- The sign classes (R184). -/
inductive SignClass where
  | line2
  | line4
  | ticket
  deriving DecidableEq, Repr

/-- The send modes (R183). -/
inductive SendMode where
  | once
  | repeating
  | off
  deriving DecidableEq, Repr

/-- A sign line: its words, in order (R184). -/
abbrev Line := List Text

/-- A job record (R183): the snapshot of the lines in the range, the number of the first, the line and the sequence
value awaited, the subject and the directions mark. -/
structure Job where
  lines : List Line
  first : Nat
  awaited : Nat
  seq : Nat
  subject : Option Handle
  directions : Bool
  deriving DecidableEq, Repr

/-- The job state, with the job record while SENDING (R183). -/
inductive JobState where
  | idle
  | sending (job : Job)
  | hold
  deriving DecidableEq, Repr

/-- A frame sent on a sign channel (R189). -/
inductive SignFrame where
  | line (seq : Nat) (number : Nat) (final : Bool) (words : Line)
  | keepalive
  deriving DecidableEq, Repr

/-- A Sign Unit (R183). A mirror entry that is `none` is UNKNOWN. `reply` is the reply timer's count, 0 while stopped;
`replyDue` is its expiry not yet taken. `sent` is the model's record of the frames sent since power-on, oldest first. -/
structure Sign where
  cls : SignClass
  mode : SendMode
  desk : Text
  mirror : List (Option Line)
  job : JobState
  printDue : Bool
  abortSubject : Option Handle
  seq : Nat
  reply : Nat
  replyDue : Bool
  faults : Nat
  reportMark : Bool
  sent : List SignFrame
  deriving DecidableEq, Repr

/-! ### The Server Link (SLK) -/

/-- The result codes (R219). -/
inductive Result where
  | ok
  | badParam
  | notFound
  | exists_
  | tableFull
  | clockNotSet
  | windowFull
  | noSuchWindow
  | inUse
  | wrongState
  | windowOpen
  | timeBackward
  | laneBusy
  | staleHandle
  | notEmpty
  | badCheckDigit
  | unknownRequest
  deriving DecidableEq, Repr

/-- A request frame in the request queue: code, tag and field bytes. The length and the check were judged at its
arrival (R202). -/
structure ReqFrame where
  code : Byte
  tag : Word16
  fields : List Byte
  deriving DecidableEq, Repr

/-- A response in the response queue (R219). -/
structure Response where
  code : Byte
  tag : Word16
  result : Result
  fields : List Byte
  deriving DecidableEq, Repr

/-- The kinds of the last link error (R202). -/
inductive LinkError where
  | none
  | operation
  | frame
  | check
  | full
  deriving DecidableEq, Repr

/-- An entry of the change set (R207). -/
inductive Change where
  | visit (slot : Fin 64)
  | lane (lane : Lane)
  deriving DecidableEq, Repr

/-- The fields of BOOK_CREATE (R12). An absent seal list is `none`. -/
structure CreateReq where
  ref : Text
  kind : Kind
  window : Nat
  teu : Nat
  container : Option Text
  plate : Option Text
  seals : Option (List Text)
  declared : Option Declared
  group : Option Nat
  block : Option Nat
  deriving DecidableEq, Repr

/-- The plate of a BOOK_AMEND: unchanged, removed or replaced (R13). -/
inductive PlateChange where
  | unchanged
  | remove
  | value (plate : Text)
  deriving DecidableEq, Repr

/-- The fields of BOOK_AMEND; `none` is "unchanged" (R13). -/
structure AmendReq where
  ref : Text
  window : Option Nat
  plate : PlateChange
  seals : Option (List Text)
  declared : Option Declared
  group : Option Nat
  block : Option Nat
  teu : Option Nat
  container : Option Text
  deriving DecidableEq, Repr

/-- A decoded booking request (R12 to R17). A scan's filter `none` is ANY. -/
inductive BookReq where
  | create (r : CreateReq)
  | amend (r : AmendReq)
  | cancel (ref : Text)
  | retire (ref : Text)
  | query (ref : Text)
  | scan (filter : Option BookingState) (start : Nat)
  deriving DecidableEq, Repr

/-- What a request in execution waits for (R203): its index-engine operation, or the end of a TIME_SET catch-up, with
the minute set and the number of windows retired so far (R216). -/
inductive Work where
  | booking (req : BookReq)
  | catchUp (minute : Nat) (retired : Nat)
  deriving DecidableEq, Repr

/-- The request in execution, with its mark for discard (R203, R206). -/
structure Execution where
  code : Byte
  tag : Word16
  discard : Bool
  work : Work
  deriving DecidableEq, Repr

/-- The Server Link (R201 to R211). `ignoring` is a transfer that was in progress when LRST was asserted and is
ignored to its end (R206). `sdo` holds the bytes shifted out on SDO after the operation byte of the last transfer. -/
structure Link where
  requests : List ReqFrame
  responses : List Response
  exec : Option Execution
  errors : Nat
  errorKind : LinkError
  changes : List Change
  attnVisit : Bool
  attnLane : Bool
  attnNoShow : Bool
  ignoring : Bool
  sdo : List Byte
  deriving DecidableEq, Repr

/-! ### The whole part -/

/-- Why the block stops with a fault. There is none: the manual gives every command an effect in every state. -/
inductive Fault where
  deriving DecidableEq, Repr

/-- Why a command is refused by the model. -/
inductive Refusal where
  /-- Raised by `exec` alone, for a command that has no meaning yet; safe, since the run stops. No arm raises it. -/
  | notModelled (mnemonic : String)
  deriving DecidableEq, Repr

/-- The state of the UG12. `pending` is the model's queue of commands; `prst` and `lrst` are the input lines PRST and
LRST (true is asserted); `loops` are the loop lines; `openWait` is the open-wait list (R72) and `freeCount` the free
count (R60) of the Visit Table; `free` is the model's counter of free bytes drawn. -/
structure State where
  pending : List Instr
  prst : Bool
  lrst : Bool
  loops : Vector Loops 12
  link : Link
  time : TimeBase
  book : Book
  engine : Engine
  ring : Ring
  lanes : Vector LaneUnit 12
  openWait : List Lane
  freeCount : Nat
  visits : Vector VisitSlot 64
  check : Check
  grader : Grader
  yard : Yard
  signs : Vector Sign 12
  free : Nat
  deriving DecidableEq, Repr

/-! ### Power-on values -/

/-- The same value for each of the four kinds. -/
def PerKind.all (n : Nat) : PerKind := ⟨n, n, n, n⟩

/-- The default limits (R70). -/
def Limits.default : Limits := ⟨1800, 50, 600, 3000, 3000, 600, 20, 5⟩

/-- A stopped dwell timer with no expiry due (R67). -/
def Dwell.stopped : Dwell := ⟨.stopped, 0, .approach, 0⟩

/-- A Lane Unit at power-on (R49, R58, R89). -/
def LaneUnit.reset : LaneUnit where
  mode := .manual
  resident := none
  releasing := false
  closing := false
  entryCleared := false
  exitSeen := false
  clearOverdue := false
  dwell := .stopped
  refresh := Limits.default.refresh
  refreshDue := 0
  limits := .default
  points := Vector.replicate 7 ⟨false, false⟩
  buffer := []
  flags := ⟨false, false, false, false⟩

/-- The Server Link at power-on (R217). -/
def Link.reset : Link := ⟨[], [], none, 0, .none, [], false, false, false, false, []⟩

/-- The Time Base at power-on (R217). -/
def TimeBase.reset : TimeBase := ⟨0, 0, 1600000, 0, 1600000, 0, 0, 0, false, false⟩

/-- The grading parameters' defaults (R139). -/
def Params.default : Params :=
  ⟨⟨4096, 0, 0⟩, ⟨0, 4096, 0⟩, ⟨0, 0, 4096⟩, 4, 8, 2, 64, 256, 640, 60, 3⟩

/-- The Yard Allocator at power-on (R182): bay n is OPEN with code n. -/
def Yard.reset : Yard where
  blocks := Vector.replicate 48 ⟨.undefined, none, none, 0, 0, 0, none⟩
  groups := Vector.replicate 32 []
  bays := Vector.ofFn fun b => ⟨[48 + b.val], [], true, []⟩
  queue := []

/-- The decimal digits of a lane's number. -/
def laneDigits (n : Lane) : Text :=
  if n.val < 9 then [49 + n.val] else [49, 39 + n.val]

/-- The content of a lane in MANUAL and IDLE on a LINE4 sign: the STAFFED row of R185. -/
def staffedLines (n : Lane) : List Line := [[Text.of "LANE", laneDigits n, Text.of "STAFFED"], [], [], []]

/-- A Sign Unit before its first job (R183). -/
def Sign.blank : Sign :=
  ⟨.line4, .once, [], [none, none, none, none], .idle, false, none, 0, 0, false, 0, false, []⟩

/-- A Sign Unit after the power-on event (R183, R191, R192): its first job, of every line, is SENDING and awaits the
reply to line 1. -/
def Sign.reset (n : Lane) : Sign :=
  { Sign.blank with
    job := .sending ⟨staffedLines n, 1, 1, 0, none, false⟩
    seq := 1
    reply := Limits.default.signReply
    sent := [.line 0 1 false [Text.of "LANE", laneDigits n, Text.of "STAFFED"]] }

/-- The state right after the power-on event (R23, R41, R49, R58, R89, R105, R120, R143, R182, R183, R217), with every
loop line clear and both reset lines released (notes/assumptions/2). -/
def State.reset : State where
  pending := []
  prst := false
  lrst := false
  loops := Vector.replicate 12 ⟨false, false, false⟩
  link := .reset
  time := .reset
  book := ⟨[], [], 0, 0⟩
  engine := ⟨12, none, Vector.replicate 12 none⟩
  ring := ⟨none, [], .all 100, 30, 15, 2⟩
  lanes := Vector.replicate 12 .reset
  openWait := []
  freeCount := 64
  visits := Vector.replicate 64 ⟨0, none⟩
  check := ⟨60, 50, 70, false⟩
  grader := ⟨.default, none, 11, Vector.replicate 12 ⟨none, 0, 0⟩⟩
  yard := .reset
  signs := Vector.ofFn Sign.reset
  free := 0

end Sys2Proof.Machine
end

