-- ==== Sys2Proof/Machine/Ops.lean ====
section
/-!
DEFINITION. The named operations over the records of the part: texts, sparse tables, values per kind, position and
face, the accessors of `State`, the change set and the dwell timer. Every other file reads and writes records through
these.
-/

namespace Sys2Proof.Machine

/-! ### Texts -/

/-- A digit, by its ASCII code. -/
def isDigit (c : Nat) : Bool := 48 ≤ c && c ≤ 57

/-- An upper-case letter, by its ASCII code. -/
def isLetter (c : Nat) : Bool := 65 ≤ c && c ≤ 90

/-- Lower-case letters become upper case (00_scope, Text). -/
def upper (c : Nat) : Nat := if 97 ≤ c && c ≤ 122 then c - 32 else c

/-- Normalisation of a text on arrival: upper case, every other character removed (00_scope, Text). -/
def normalise (bytes : List Byte) : Text :=
  (bytes.map fun b => upper b.toNat).filter fun c => isDigit c || isLetter c

/-- The decimal digits of a number below 100. -/
def digits2 (n : Nat) : Text := if n < 10 then [48 + n] else [48 + n / 10, 48 + n % 10]

/-! ### Sparse tables: lists of key and value, keys strictly rising -/

/-- The value at a key. -/
def tableFind {α : Type} (k : Nat) : List (Nat × α) → Option α
  | [] => none
  | (a, v) :: rest => if a = k then some v else tableFind k rest

/-- Writes a value at a key, keeping the keys rising. -/
def tablePut {α : Type} (k : Nat) (v : α) : List (Nat × α) → List (Nat × α)
  | [] => [(k, v)]
  | (a, w) :: rest =>
    if k < a then (k, v) :: (a, w) :: rest
    else if a = k then (k, v) :: rest
    else (a, w) :: tablePut k v rest

/-- Removes a key. -/
def tableDel {α : Type} (k : Nat) : List (Nat × α) → List (Nat × α)
  | [] => []
  | (a, w) :: rest => if a = k then rest else (a, w) :: tableDel k rest

/-- The lowest number from `k` on that is no key of a table whose keys rise from `k`. -/
def tableLowestFree {α : Type} (k : Nat) : List (Nat × α) → Nat
  | [] => k
  | (a, _) :: rest => if a = k then tableLowestFree (k + 1) rest else k

/-- The canonical form of a table: keys strictly rising. -/
abbrev tableWf {α : Type} (t : List (Nat × α)) : Prop := t.Pairwise fun a b => a.1 < b.1

/-! ### Values per kind, per position, per face -/

/-- The value of one kind. -/
def PerKind.get (p : PerKind) : Kind → Nat
  | .exportFull => p.exportFull
  | .emptyReturn => p.emptyReturn
  | .importPickup => p.importPickup
  | .emptyPickup => p.emptyPickup

/-- Replaces the value of one kind. -/
def PerKind.put (p : PerKind) (k : Kind) (n : Nat) : PerKind :=
  match k with
  | .exportFull => { p with exportFull := n }
  | .emptyReturn => { p with emptyReturn := n }
  | .importPickup => { p with importPickup := n }
  | .emptyPickup => { p with emptyPickup := n }

/-- The drop kinds (R2). -/
def Kind.isDrop : Kind → Bool
  | .exportFull | .emptyReturn => true
  | .importPickup | .emptyPickup => false

/-- The value of one position. -/
def PosPair.get {α : Type} (p : PosPair α) : Pos → α
  | .one => p.one
  | .two => p.two

/-- Replaces the value of one position. -/
def PosPair.put {α : Type} (p : PosPair α) (i : Pos) (a : α) : PosPair α :=
  match i with
  | .one => { p with one := a }
  | .two => { p with two := a }

/-- The values of the five faces in face order. -/
def Faces.toList {α : Type} (f : Faces α) : List α := [f.left, f.right, f.front, f.rear, f.roof]

/-- A function applied to each face. -/
def Faces.map {α β : Type} (g : α → β) (f : Faces α) : Faces β :=
  ⟨g f.left, g f.right, g f.front, g f.rear, g f.roof⟩

/-- Two values joined face by face. -/
def Faces.zip {α β γ : Type} (g : α → β → γ) (f : Faces α) (h : Faces β) : Faces γ :=
  ⟨g f.left h.left, g f.right h.right, g f.front h.front, g f.rear h.rear, g f.roof h.roof⟩

/-- A count that stays at its largest value (R123, R193, R202). -/
def satSucc (n : Nat) : Nat := if n < Config.countMax then n + 1 else Config.countMax

/-! ### Accessors of the state -/

/-- The Lane Unit of a lane. -/
def State.lane (s : State) (n : Lane) : LaneUnit := s.lanes[n]

/-- Changes one Lane Unit. -/
def State.modLane (s : State) (n : Lane) (f : LaneUnit → LaneUnit) : State :=
  { s with lanes := s.lanes.set n (f s.lanes[n]) }

/-- The Sign Unit of a lane. -/
def State.sign (s : State) (n : Lane) : Sign := s.signs[n]

/-- Changes one Sign Unit. -/
def State.modSign (s : State) (n : Lane) (f : Sign → Sign) : State :=
  { s with signs := s.signs.set n (f s.signs[n]) }

/-- Changes a lane's part of the Damage Grader. -/
def State.modGrade (s : State) (n : Lane) (f : GradeLane → GradeLane) : State :=
  { s with grader := { s.grader with lanes := s.grader.lanes.set n (f s.grader.lanes[n]) } }

/-- The visit in a slot, while the slot is open. -/
def State.visit (s : State) (v : Fin 64) : Option Visit := s.visits[v].visit

/-- Changes the visit in a slot; a free slot stays as it is. -/
def State.modVisit (s : State) (v : Fin 64) (f : Visit → Visit) : State :=
  { s with visits := s.visits.set v { s.visits[v] with visit := s.visits[v].visit.map f } }

/-- The handle that names the visit in a slot (R61). -/
def State.handle (s : State) (v : Fin 64) : Handle := ⟨v, s.visits[v].gen⟩

/-- Changes the Server Link. -/
def State.modLink (s : State) (f : Link → Link) : State := { s with link := f s.link }

/-- Changes a yard block. -/
def State.modBlock (s : State) (b : Fin 48) (f : Block → Block) : State :=
  { s with yard := { s.yard with blocks := s.yard.blocks.set b (f s.yard.blocks[b]) } }

/-- Changes an inspection bay. -/
def State.modBay (s : State) (b : Fin 4) (f : Bay → Bay) : State :=
  { s with yard := { s.yard with bays := s.yard.bays.set b (f s.yard.bays[b]) } }

/-- One change made for each lane in turn, lane 1 first. -/
def forLanes (f : Lane → State → State) (s : State) : State :=
  (List.finRange 12).foldl (fun t n => f n t) s

/-- A step taken while the part has power: while PRST is held low no transfer is taken and the part is idle (R217), so
the state stays as it is. -/
def live (s : State) (t : State) : Host.Outcome State Fault Refusal := .next (if s.prst then s else t)

/-! ### The change set (R207) -/

/-- An item joins at the newest end, or keeps the place of its entry. -/
def joinList (c : Change) (cs : List Change) : List Change := if c ∈ cs then cs else cs ++ [c]

/-- An item joins the change set. -/
def State.join (s : State) (c : Change) : State :=
  { s with link := { s.link with changes := joinList c s.link.changes } }

/-! ### The dwell timer (R67, R68) -/

/-- The limit a dwell timer is loaded from. -/
def Limits.get (l : Limits) : LimitKind → Nat
  | .approach => l.approach
  | .settle => l.settle
  | .card => l.card
  | .hold => l.hold
  | .yardWait => l.yardWait
  | .clear => l.clear

/-- Loads a lane's dwell timer in a form from one of its limits. -/
def State.loadDwell (s : State) (n : Lane) (form : TimerForm) (k : LimitKind) : State :=
  s.modLane n fun l => { l with dwell := ⟨form, l.limits.get k, k, 0⟩ }

/-- Stops a lane's dwell timer. -/
def State.stopDwell (s : State) (n : Lane) : State := s.modLane n fun l => { l with dwell := .stopped }

/-- The dwell timer takes a tick (R67): a running timer of a lane in AUTO counts down, expires at 0, and then stops or
reloads from its limit as that limit stands. -/
def tickDwell (auto : Bool) (lim : Limits) (d : Dwell) : Dwell :=
  if auto && d.form != .stopped then
    if d.count ≤ 1 then
      if d.form = .repeating then { d with count := lim.get d.limit, due := d.due + 1 }
      else { d with form := .stopped, count := 0, due := d.due + 1 }
    else { d with count := d.count - 1 }
  else d

/-- An expiry of the dwell timer, loaded from limit `k`, is due at the Lane Unit. -/
def LaneUnit.expiryDue (l : LaneUnit) (k : LimitKind) : Bool := l.dwell.limit == k && 0 < l.dwell.due

/-- The Lane Unit takes an expiry of its dwell timer. -/
def State.takeExpiry (s : State) (n : Lane) : State :=
  s.modLane n fun l => { l with dwell := { l.dwell with due := l.dwell.due - 1 } }

end Sys2Proof.Machine
end

