-- ==== Sys2Proof/Machine/Flags.lean ====
section
/-!
DEFINITION. What the state shows: the views and output lines that follow their conditions at once (R45, R65, R201,
R210), the tests of a handle (R61), and the container number check (R4).
-/

namespace Sys2Proof.Machine

/-! ### Visits and lanes -/

/-- The lane-resident states of a visit (R64). -/
def VisitState.isResident : VisitState → Bool
  | .entering | .checking | .held | .yardWait | .directing | .releasing => true
  | .enRoute | .rejected => false

/-- The open visit that a handle names: its slot is open and has the handle's generation (R61). -/
def State.named (s : State) (h : Handle) : Option Visit :=
  if s.visits[h.slot].gen = h.gen then s.visit h.slot else none

/-- The handle names a lane-resident visit (R11, R61). -/
def State.namesResident (s : State) (h : Handle) : Bool :=
  match s.named h with
  | some x => x.state.isResident
  | none => false

/-- The resident visit of a lane, with its slot. -/
def State.residentVisit (s : State) (n : Lane) : Option (Fin 64 × Visit) :=
  (s.lane n).resident.bind fun v => (s.visit v).map fun x => (v, x)

/-- The resident visit of a lane, when it is in the given state. -/
def State.residentIn (s : State) (n : Lane) (st : VisitState) : Option (Fin 64 × Visit) :=
  (s.residentVisit n).filter fun p => p.2.state == st

/-- The lane state (R65): OCCUPIED with a resident visit, RELEASING while an aborted truck is let out, and otherwise by
the mode, IDLE or BLOCKED in AUTO by the free count. -/
def State.laneState (s : State) (n : Lane) : LaneState :=
  if (s.lane n).resident.isSome then .occupied
  else if (s.lane n).releasing then .releasing
  else match (s.lane n).mode with
    | .closed => .closed
    | .manual => .idle
    | .auto => if s.freeCount = 0 then .blocked else .idle

/-! ### The points (R43 to R46, R66) -/

/-- A row of the command table: the commands for points 3 to 6 (R66). -/
structure Command where
  entryBarrier : Bool
  exitBarrier : Bool
  lampStop : Bool
  lampGo : Bool
  deriving DecidableEq, Repr

/-- The row that lets a truck in: entry barrier raised, GO. -/
def rowEnter : Command := ⟨true, false, false, true⟩

/-- The row that holds a truck: both barriers lowered, STOP. It is also the CLOSED command. -/
def rowStop : Command := ⟨false, false, true, false⟩

/-- The row that lets a truck out: exit barrier raised, GO. -/
def rowLeave : Command := ⟨false, true, false, true⟩

/-- The sequencer's command for a lane (R66). -/
def State.command (s : State) (n : Lane) : Command :=
  match s.laneState n with
  | .idle => rowEnter
  | .blocked => rowStop
  | .closed => rowStop
  | .releasing => rowLeave
  | .occupied =>
    match s.residentVisit n with
    | some (_, x) =>
      match x.state with
      | .entering => if (s.lane n).entryCleared then rowStop else rowEnter
      | .releasing => rowLeave
      | .checking | .held | .yardWait | .directing | .enRoute | .rejected => rowStop
    | none => rowStop

/-- The command for point 3, 4, 5 or 6. -/
def Command.point (c : Command) (p : Fin 7) : Bool :=
  match p with
  | 3 => c.entryBarrier
  | 4 => c.exitBarrier
  | 5 => c.lampStop
  | 6 => c.lampGo
  | _ => false

/-- The level of a loop line, points 0 to 2. -/
def Loops.point (l : Loops) (p : Fin 7) : Bool :=
  match p with
  | 0 => l.entry
  | 1 => l.stop
  | 2 => l.exit
  | _ => false

/-- The level at a point's line (R44, R45). While PRST is held low the output lines are undriven at level 0 (R217). -/
def State.lineLevel (s : State) (n : Lane) (p : Fin 7) : Bool :=
  if p.val < 3 then s.loops[n].point p
  else if s.prst then false
  else match (s.lane n).mode with
    | .auto => (s.command n).point p
    | .manual => (s.lane n).points[p].drive && (s.lane n).points[p].latch
    | .closed => rowStop.point p

/-- A point's read value (R46): its latch in DRIVE, its line level in SENSE. -/
def State.readValue (s : State) (n : Lane) (p : Fin 7) : Bool :=
  if (s.lane n).points[p].drive then (s.lane n).points[p].latch else s.lineLevel n p

/-! ### The server link's output lines (R201, R210) -/

/-- RDY: the request queue has a place and LRST is released (R201, R206, R217). -/
def State.rdy (s : State) : Bool := !s.prst && !s.lrst && s.link.requests.length < Config.queuePlaces

/-- RSP: the response queue is not empty (R201, R217). -/
def State.rsp (s : State) : Bool := !s.prst && !s.link.responses.isEmpty

/-- The change set holds a visit entry. -/
def Link.hasVisit (l : Link) : Bool := l.changes.any fun | .visit _ => true | .lane _ => false

/-- The change set holds a lane entry. -/
def Link.hasLane (l : Link) : Bool := l.changes.any fun | .visit _ => false | .lane _ => true

/-- The attention line's condition (R210). -/
def State.attention (s : State) : Bool :=
  (s.link.attnVisit && s.link.hasVisit) || (s.link.attnLane && s.link.hasLane)
    || (s.link.attnNoShow && 0 < s.book.noShow)

/-- ATTN, asserted (R210); released while PRST is held (R217). -/
def State.attn (s : State) : Bool := !s.prst && s.attention

/-- The length of the tick in progress, in reference periods (R213). -/
def TimeBase.tickLength (t : TimeBase) : Nat := if t.fine < t.f then t.d + 1 else t.d

/-- The effective send mode (R183): ONCE on a TICKET lane. -/
def Sign.effective (g : Sign) : SendMode := if g.cls = .ticket then .once else g.mode

/-! ### The container number check (R4) -/

/-- The result of the check. -/
inductive CheckResult where
  | valid
  | malformed
  | badCheckDigit
  deriving DecidableEq, Repr

/-- The value of a character in the check: a digit's own value, a letter's by the table, which leaves out 11, 22 and
33. -/
def checkValue (c : Nat) : Nat :=
  if isDigit c then c - 48
  else if c = 65 then 10
  else if c ≤ 75 then c - 54
  else if c ≤ 85 then c - 53
  else c - 52

/-- The sum of the weighted values, the first character weighted `w` and each next one twice the one before. -/
def checkSum (w : Nat) : Text → Nat
  | [] => 0
  | c :: rest => w * checkValue c + checkSum (2 * w) rest

/-- A text has the format of a container number: four letters then seven digits. -/
def containerFormat (t : Text) : Bool :=
  t.length == 11 && (t.take 4).all isLetter && (t.drop 4).all isDigit

/-- The container number check of a normalised text. -/
def containerCheck (t : Text) : CheckResult :=
  if containerFormat t then
    if (checkSum 1 (t.take 10) % 11) % 10 + 48 = t.getD 10 0 then .valid else .badCheckDigit
  else .malformed

end Sys2Proof.Machine
end

