-- ==== Sys2Proof/Machine/Operands.lean ====
section
/-!
DEFINITION. The field encoding of R219: decoding the fields of a frame, and building the fields of a response.

A decoder reads from the front of a list of bytes and answers the value and the rest. Fields decode when their decoder
answers and no byte is left (R204).
-/

namespace Sys2Proof.Machine

/-! ### Decoding -/

/-- A decoder of fields. -/
abbrev Dec (α : Type) := StateT (List Byte) Option α

/-- Decodes a whole field list: no byte may be left (R204, "too few or too many bytes"). -/
def decodeAll {α : Type} (d : Dec α) (bytes : List Byte) : Option α :=
  match d.run bytes with
  | some (a, []) => some a
  | _ => none

/-- No value: the fields do not decode. -/
def dFail {α : Type} : Dec α := fun _ => none

/-- One byte as a number. -/
def d1 : Dec Nat := fun
  | [] => none
  | b :: rest => some (b.toNat, rest)

/-- Two bytes, most significant first. -/
def d2 : Dec Nat := fun
  | a :: b :: rest => some (a.toNat * 256 + b.toNat, rest)
  | _ => none

/-- Four bytes, most significant first. -/
def d4 : Dec Nat := do
  let hi ← d2
  let lo ← d2
  return hi * 65536 + lo

/-- Two bytes, two's complement (a mix matrix entry). -/
def d2signed : Dec Int := do
  let n ← d2
  return if n < 32768 then (n : Int) else (n : Int) - 65536

/-- The next `n` bytes. -/
def dBytes (n : Nat) : Dec (List Byte) := fun bytes =>
  if n ≤ bytes.length then some (bytes.take n, bytes.drop n) else none

/-- A text: a count byte and that many characters, normalised on arrival. -/
def dText : Dec Text := do
  let n ← d1
  let bytes ← dBytes n
  return normalise bytes

/-- An enumeration: 0 for the first value. -/
def dEnum {α : Type} (values : List α) : Dec α := do
  let n ← d1
  match values[n]? with
  | some a => return a
  | none => dFail

/-- A presence byte, then the value where it says one follows. -/
def dOpt {α : Type} (d : Dec α) : Dec (Option α) := do
  match ← d1 with
  | 0 => return none
  | 1 => return some (← d)
  | _ => dFail

/-- A number of items, one after the other. -/
def dRepeat {α : Type} (d : Dec α) : Nat → Dec (List α)
  | 0 => return []
  | n + 1 => do
    let a ← d
    let rest ← dRepeat d n
    return a :: rest

/-- A list: a count byte of at most `limit`, then the items. -/
def dList {α : Type} (limit : Nat) (d : Dec α) : Dec (List α) := do
  let n ← d1
  if n ≤ limit then dRepeat d n else dFail

/-- A choice: selector 00h for the first alternative, 01h for the second. -/
def dChoice {α : Type} (first second : Dec α) : Dec α := do
  match ← d1 with
  | 0 => first
  | 1 => second
  | _ => dFail

/-- A mask of `n` items: no bit beyond the last may be set. -/
def dMask (n : Nat) : Dec Nat := do
  let m ← d1
  if m < 2 ^ n then return m else dFail

/-- A handle as received: slot, then generation. -/
def dHandle : Dec (Nat × Nat) := do
  let v ← d1
  let g ← d1
  return (v, g)

/-! ### Encoding -/

/-- A one-byte number. -/
def e1 (n : Nat) : List Byte := [BitVec.ofNat 8 n]

/-- A two-byte number. -/
def e2 (n : Nat) : List Byte := [BitVec.ofNat 8 (n / 256), BitVec.ofNat 8 n]

/-- A four-byte number, and a gate minute. -/
def e4 (n : Nat) : List Byte := e2 (n / 65536) ++ e2 n

/-- A signed number in two bytes, two's complement. -/
def e2signed (n : Int) : List Byte := e2 (n % 65536).toNat

/-- A mark or flag. -/
def eFlag (b : Bool) : List Byte := if b then [0x01#8] else [0x00#8]

/-- A text, or the words of a line. -/
def eText (t : Text) : List Byte := e1 t.length ++ t.map (BitVec.ofNat 8)

/-- An optional field: a presence byte, then the value. -/
def eOpt {α : Type} (e : α → List Byte) : Option α → List Byte
  | none => [0x00#8]
  | some a => 0x01#8 :: e a

/-- A list or a set: a count byte, then the items. -/
def eList {α : Type} (e : α → List Byte) (as : List α) : List Byte := e1 as.length ++ as.flatMap e

/-- A handle. -/
def eHandle (h : Handle) : List Byte := e1 h.slot.val ++ e1 h.gen.val

/-- A lane's number. -/
def eLane (n : Lane) : List Byte := e1 (n.val + 1)

/-! ### The values of the enumerations, in the order their rules list them -/

/-- The result values of R219's table. -/
def Result.code : Result → Nat
  | .ok => 0x00 | .badParam => 0x01 | .notFound => 0x02 | .exists_ => 0x03 | .tableFull => 0x04
  | .clockNotSet => 0x05 | .windowFull => 0x06 | .noSuchWindow => 0x07 | .inUse => 0x08 | .wrongState => 0x09
  | .windowOpen => 0x0A | .timeBackward => 0x0C | .laneBusy => 0x0D | .staleHandle => 0x0E | .notEmpty => 0x0F
  | .badCheckDigit => 0x10 | .unknownRequest => 0x11

/-- The kinds (R1). -/
def allKinds : List Kind := [.exportFull, .emptyReturn, .importPickup, .emptyPickup]

/-- R1. -/
def Kind.code : Kind → Nat
  | .exportFull => 0 | .emptyReturn => 1 | .importPickup => 2 | .emptyPickup => 3

/-- The booking states (R1). -/
def allBookingStates : List BookingState := [.booked, .inLane, .admitted, .noShow]

/-- R1. -/
def BookingState.code : BookingState → Nat
  | .booked => 0 | .inLane => 1 | .admitted => 2 | .noShow => 3

/-- The declared conditions (R1). -/
def allDeclared : List Declared := [.sound, .damaged]

/-- R1. -/
def Declared.code : Declared → Nat
  | .sound => 0 | .damaged => 1

/-- The lane modes (R65). -/
def allModes : List Mode := [.auto, .manual, .closed]

/-- R65. -/
def Mode.code : Mode → Nat
  | .auto => 0 | .manual => 1 | .closed => 2

/-- R65. -/
def LaneState.code : LaneState → Nat
  | .idle => 0 | .blocked => 1 | .occupied => 2 | .releasing => 3 | .closed => 4

/-- R62. -/
def VisitState.code : VisitState → Nat
  | .entering => 0 | .checking => 1 | .held => 2 | .yardWait => 3 | .directing => 4 | .releasing => 5
  | .enRoute => 6 | .rejected => 7

/-- R62. -/
def CardField.code : CardField → Nat
  | .none => 0 | .pending => 1 | .done => 2

/-- R62. -/
def ReleaseOutcome.code : ReleaseOutcome → Nat
  | .admission => 0 | .turnAway => 1 | .holdTimeout => 2

/-- R62. -/
def DecisionSource.code : DecisionSource → Nat
  | .auto => 0 | .server => 1

/-- R62. -/
def RejectReason.code : RejectReason → Nat
  | .turnAway => 0 | .holdTimeout => 1 | .aborted => 2 | .laneReset => 3 | .restart => 4

/-- The reasons that stand in a set, by their values, in the order of R146. -/
def Reasons.codes (r : Reasons) : List Nat :=
  ([r.approachTimeout, r.noCard, r.cardUnreadable, r.teuLimit, r.plateMismatch, r.plateUnread, r.linkLoss,
    r.noYardSpace].zipIdx.filter fun p => p.1).map fun p => p.2

/-- R63. -/
def WindowOutcome.code : WindowOutcome → Nat
  | .onTime => 0 | .transferred => 1 | .early => 2 | .late => 3 | .noWindow => 4

/-- R63. -/
def ContainerVerdict.code : ContainerVerdict → Nat
  | .matched => 0 | .mismatch => 1 | .checkFail => 2 | .notRead => 3 | .notApplicable => 4

/-- R116, then NOT_APPLICABLE (R63). -/
def SealVerdict.code : SealVerdict → Nat
  | .unread => 0 | .noneExpected => 1 | .unexpected => 2 | .mismatch => 3 | .missing => 4 | .weak => 5
  | .intact => 6 | .notApplicable => 7

/-- R63. -/
def DamageVerdict.code : DamageVerdict → Nat
  | .pass => 0 | .passDeclared => 1 | .flag => 2 | .notApplicable => 3

/-- R145. -/
def LegException.code : LegException → Nat
  | .notFound => 0 | .duplicateUse => 1 | .alreadyAdmitted => 2 | .noShow => 3

/-- R63. -/
def Disposition.code : Disposition → Nat
  | .pending => 0 | .yard => 1 | .inspect => 2 | .dropped => 3

/-- R129's table, then UNSEEN. -/
def Grade.code : Grade → Nat
  | .clean => 0 | .minor => 1 | .major => 2 | .critical => 3 | .unseen => 4

/-- R138's table. -/
def DamageClass.code : DamageClass → Nat
  | .clean => 0 | .minor => 1 | .major => 2 | .critical => 3 | .incomplete => 4 | .notScanned => 5

/-- R131. -/
def Basis.code : Basis → Nat
  | .settled => 0 | .forced => 1

/-- R133. -/
def GradingState.code : GradingState → Nat
  | .isOpen => 0 | .closing => 1 | .closed => 2

/-- R67. -/
def TimerForm.code : TimerForm → Nat
  | .stopped => 0 | .oneShot => 1 | .repeating => 2

/-- R202. -/
def LinkError.code : LinkError → Nat
  | .none => 0 | .operation => 1 | .frame => 2 | .check => 3 | .full => 4

/-- The block states (R161). -/
def allBlockStates : List BlockState := [.undefined, .isOpen, .closed]

/-- R161. -/
def BlockState.code : BlockState → Nat
  | .undefined => 0 | .isOpen => 1 | .closed => 2

/-- What a block accepts (R161). -/
def allAccepts : List Accepts := [.exportFull, .emptyReturn, .both]

/-- R161. -/
def Accepts.code : Accepts → Nat
  | .exportFull => 0 | .emptyReturn => 1 | .both => 2

/-- The sign classes (R183). -/
def allSignClasses : List SignClass := [.line2, .line4, .ticket]

/-- R183. -/
def SignClass.code : SignClass → Nat
  | .line2 => 0 | .line4 => 1 | .ticket => 2

/-- The send modes (R183). -/
def allSendModes : List SendMode := [.once, .repeating, .off]

/-- R183. -/
def SendMode.code : SendMode → Nat
  | .once => 0 | .repeating => 1 | .off => 2

/-- R183. -/
def JobState.code : JobState → Nat
  | .idle => 0 | .sending _ => 1 | .hold => 2

/-! ### Fields built from several items -/

/-- A destination: block 0 to 47, or bay 0 to 3 (R63). -/
def eDest : Dest → List Byte
  | .block b => 0x00#8 :: e1 b.val
  | .bay b => 0x01#8 :: e1 b.val

/-- A read set entry: text and confidence (R104, R119). -/
def eEntry (r : ReadEntry) : List Byte := eText r.text ++ e1 r.conf

/-- A container read set entry: text, confidence and check result, VALID 0 or BAD_CHECK_DIGIT 1 (R96, R104). -/
def eContainerEntry (r : ReadEntry) : List Byte :=
  eEntry r ++ e1 (if containerCheck r.text = .valid then 0 else 1)

/-- Five face grades. -/
def eFaces (f : Faces Grade) : List Byte := f.toList.flatMap fun g => e1 g.code

/-- The fields of a booking record, in the order of R1's table (R16). -/
def eBooking (b : Booking) : List Byte :=
  eText b.ref ++ e1 b.kind.code ++ e1 b.state.code ++ eOpt e4 b.window ++ e1 b.teu ++ eOpt eText b.container
    ++ eOpt eText b.plate ++ eOpt (eList eText) (some b.seals) ++ eOpt (fun d => e1 d.code) b.declared
    ++ eOpt e1 b.group ++ eOpt e1 b.block ++ eOpt eHandle b.visit

/-- A leg's damage result (R63, R137): class; face grades, basis and size class where there are any; scan count. -/
def eLegDamage (d : LegDamage) : List Byte :=
  e1 d.cls.code ++ eOpt (fun r : PosResult => eFaces r.faces) d.result
    ++ eOpt (fun r : PosResult => e1 r.basis.code) d.result ++ e1 d.scans
    ++ eOpt (fun r : PosResult => e1 r.size) d.result

/-- The fields of a leg record, in the order of R63's table. -/
def eLeg (l : Leg) : List Byte :=
  eText l.ref ++ eOpt e2 l.slot ++ eOpt (fun k => e1 k.code) l.kind ++ eOpt e1 l.teu ++ e1 l.window.code
    ++ eOpt (fun p => e1 (match p with | Pos.one => 1 | Pos.two => 2)) l.bound ++ e1 l.container.code
    ++ e1 l.sealVerdict.code ++ eOpt eLegDamage l.damage ++ e1 l.damageVerdict.code
    ++ eList (fun x : LegException => e1 x.code) l.exception.toList ++ e1 l.disposition.code ++ eOpt eDest l.dest
    ++ eFlag l.done

/-- A seal finding: text, outcome, and the confidence where there is one (R118). -/
def eSealFinding (f : Text × SealOutcome) : List Byte :=
  eText f.1 ++ match f.2 with
    | .matched c => e1 0 ++ eOpt e1 (some c)
    | .matchedWeak c => e1 1 ++ eOpt e1 (some c)
    | .missing => e1 2 ++ eOpt e1 none

/-- The seal findings of a judged leg (R118). -/
def eFindings (f : SealFindings) : List Byte :=
  e1 f.floor ++ eFlag f.weakOn ++ eList eSealFinding f.seals ++ eList eEntry f.extras ++ eFlag f.overflow

/-- The outcome of a position, and its text and confidence where it has them (R99, R104). -/
def ePosOutcome : PosOutcome → List Byte
  | .resolved r => e1 0 ++ eOpt eEntry (some r)
  | .checkFail r => e1 1 ++ eOpt eEntry (some r)
  | .unread => e1 2 ++ eOpt eEntry none

/-- A seal read set with its overflow mark (R119). -/
def eSealSet (x : SealSet) : List Byte := eList eEntry x.entries ++ eFlag x.overflow

/-- A position's result (R131). -/
def ePosResult (r : PosResult) : List Byte :=
  e1 r.cls.code ++ eFaces r.faces ++ e1 r.basis.code ++ e1 r.size

/-- A position's stability state, in the order of R131's table (R142). -/
def eStability (x : Stability) : List Byte :=
  e1 x.scans ++ e1 x.run ++ eOpt (fun p : Nat × Faces Grade => e1 p.1 ++ eFaces p.2) x.previous
    ++ x.worst.toList.flatMap (eOpt fun g => e1 g.code) ++ eOpt ePosResult x.result

/-- The grading parameters, in the order of R139's table. -/
def eParams (p : Params) : List Byte :=
  ([p.dent, p.hole, p.rust].flatMap fun r => e2signed r.d ++ e2signed r.b ++ e2signed r.s)
    ++ e1 p.wd ++ e1 p.wh ++ e1 p.wr ++ e2 p.t1 ++ e2 p.t2 ++ e2 p.t3 ++ e1 p.floor ++ e1 p.k

/-- A lane's eight limits (R70). -/
def eLimits (l : Limits) : List Byte :=
  e2 l.approach ++ e2 l.settle ++ e2 l.card ++ e2 l.hold ++ e2 l.yardWait ++ e2 l.clear ++ e2 l.refresh
    ++ e2 l.signReply

/-- The four link flags, in the order of R55: a flag byte each and no mask, DESIGN CHOICE, notes/assumptions/10. -/
def eFlags (f : LinkFlags) : List Byte :=
  eFlag f.overrun ++ eFlag f.frameError ++ eFlag f.checkError ++ eFlag f.stray

/-- A point's direction, latch and read value (R47, R48). -/
def ePoint (s : State) (n : Lane) (p : Fin 7) : List Byte :=
  eFlag (s.lane n).points[p].drive ++ eFlag (s.lane n).points[p].latch ++ eFlag (s.readValue n p)

/-- The free TEU of a block: capacity − occupied − reserved, signed (R162). -/
def Block.free (b : Block) : Int := (b.capacity : Int) - b.occupied - b.reserved

/-- A place of a bay: handle and leg number (R181). -/
def ePlace (p : Place) : List Byte := eHandle p.handle ++ e1 p.leg

/-- A line of a sign: its words (R184). -/
def eLine (l : Line) : List Byte := eList eText l

end Sys2Proof.Machine
end

