-- ==== Sys2Proof/Machine/Frames.lean ====
section
/-!
DEFINITION. The frame layouts: the check and the server link frames (R202, R219), the framing of the lane links and the
sign channels (R220, R221), and the contents of a lane link frame (R50, R51).
-/

namespace Sys2Proof.Machine

/-! ### The frame check (R219) -/

/-- One bit of the CRC with polynomial 1021h, most significant bit first. -/
def crcBit (c : Word16) : Word16 := if c.msb then (c <<< 1) ^^^ 0x1021#16 else c <<< 1

/-- One byte of the CRC. -/
def crcByte (c : Word16) (b : Byte) : Word16 :=
  crcBit (crcBit (crcBit (crcBit (crcBit (crcBit (crcBit (crcBit (c ^^^ (b.setWidth 16 <<< 8)))))))))

/-- The frame check over some bytes: initial value FFFFh, no final inversion. -/
def frameCheck (bytes : List Byte) : Word16 := bytes.foldl crcByte 0xFFFF#16

/-- The check as sent: most significant byte first. -/
def checkBytes (bytes : List Byte) : List Byte :=
  [(frameCheck bytes >>> 8).setWidth 8, (frameCheck bytes).setWidth 8]

/-! ### Server link frames (R202, R219) -/

/-- The length field of a request frame, where there are two bytes. -/
def lengthField : List Byte → Nat
  | a :: b :: _ => a.toNat * 256 + b.toNat
  | _ => 0

/-- The request that the bytes after a length field spell: code, tag and fields. -/
def requestOf : List Byte → ReqFrame
  | code :: a :: b :: fields => ⟨code, a ++ b, fields⟩
  | _ => ⟨0, 0, []⟩

/-- Steps 1 and 2 of R202: the frame, or the link error it is discarded with. -/
def judgeRequest (bytes : List Byte) : Except LinkError ReqFrame :=
  let len := lengthField bytes
  if bytes.length ≠ len + 4 ∨ len < 3 ∨ 1020 < len then .error .frame
  else if checkBytes (bytes.take (len + 2)) ≠ bytes.drop (len + 2) then .error .check
  else .ok (requestOf ((bytes.take (len + 2)).drop 2))

/-- A response frame's bytes: length, code, tag, result, fields and check (R219). Fields above R219's largest length are
sent whole: DESIGN CHOICE, notes/assumptions/23. -/
def Response.bytes (r : Response) : List Byte :=
  let body := e2 (4 + r.fields.length) ++ r.code :: (r.tag >>> 8).setWidth 8 :: r.tag.setWidth 8
    :: BitVec.ofNat 8 r.result.code :: r.fields
  body ++ checkBytes body

/-! ### Serial framing (R220) -/

/-- What follows a start mark, unstuffed, up to the end mark: none where the frame is badly delimited, that is, cut
short by a start mark, carrying a framing fault or a bad 7Dh, without its end mark, or going on after it. -/
def unstuff : List RxChar → Option (List Byte)
  | [] => none
  | c :: rest =>
    if c.fault then none
    else if c.byte = 0x7C#8 then if rest.isEmpty then some [] else none
    else if c.byte = 0x7E#8 then none
    else if c.byte = 0x7D#8 then
      match rest with
      | [] => none
      | e :: rest' =>
        let b := e.byte ^^^ 0x20#8
        if !e.fault && (b == 0x7C#8 || b == 0x7D#8 || b == 0x7E#8) then (unstuff rest').map (b :: ·) else none
    else (unstuff rest).map (c.byte :: ·)

/-- A frame's kind and body. -/
structure SerialFrame where
  kind : Byte
  body : List Byte
  deriving DecidableEq, Repr

/-- Why a serial frame is discarded before its contents are read (R51, steps 1 and 2). -/
inductive FrameFault where
  | delimiting
  | check
  deriving DecidableEq, Repr

/-- Steps 1 and 2 of R51: the start mark, the delimiting, the length and the check. -/
def serialFrame : List RxChar → Except FrameFault SerialFrame
  | [] => .error .delimiting
  | c :: rest =>
    if c.fault || c.byte != 0x7E#8 then .error .delimiting
    else match unstuff rest with
      | some (kind :: len :: more) =>
        if more.length ≠ len.toNat + 2 then .error .delimiting
        else if checkBytes (kind :: len :: more.take len.toNat) ≠ more.drop len.toNat then .error .check
        else .ok ⟨kind, more.take len.toNat⟩
      | _ => .error .delimiting

/-! ### Lane link frames (R50, R220) -/

/-- A position byte. -/
def dPos : Dec Pos := do
  match ← d1 with
  | 1 => return .one
  | 2 => return .two
  | _ => dFail

/-- A text of a lane link frame: at most 16 characters as received. -/
def dLaneText : Dec Text := do
  let n ← d1
  if n ≤ 16 then
    let bytes ← dBytes n
    return normalise bytes
  else dFail

/-- A measure of a face record, 0 to 1023. -/
def dMeasure : Dec Nat := do
  let n ← d2
  if n ≤ 1023 then return n else dFail

/-- A face record. -/
def dFace : Dec Face := do
  let d ← dMeasure
  let b ← dMeasure
  let s ← dMeasure
  let c ← d1
  return ⟨d, b, s, c⟩

/-- A size class, 1 to 3. -/
def dSize : Dec Nat := do
  let n ← d1
  if 1 ≤ n ∧ n ≤ 3 then return n else dFail

/-- The reference texts of a CARD frame. -/
def dCard : Dec (List Text) := do
  let n ← d1
  if n = 1 ∨ n = 2 then dRepeat dLaneText n else dFail

/-- Step 3 of R51: the contents of a frame, or none where they can be no frame of any kind. -/
def laneContents (f : SerialFrame) : Option LaneFrame :=
  if f.kind = 0x01#8 then
    decodeAll (do let conf ← d1; let t ← dLaneText; return .plate t conf) f.body
  else if f.kind = 0x02#8 then
    decodeAll (do let refs ← dCard; return .card refs) f.body
  else if f.kind = 0x03#8 then
    decodeAll (do let p ← dPos; let conf ← d1; let t ← dLaneText; return .container p t conf) f.body
  else if f.kind = 0x04#8 then
    decodeAll (do let p ← dPos; let conf ← d1; let t ← dLaneText; return .sealRead p t conf) f.body
  else if f.kind = 0x05#8 then
    decodeAll (do
      let p ← dPos
      let size ← dSize
      let left ← dFace
      let right ← dFace
      let front ← dFace
      let rear ← dFace
      let roof ← dFace
      return .scan p size ⟨left, right, front, rear, roof⟩) f.body
  else none

/-! ### Sign channel frames (R221) -/

/-- A well-formed reply of a sign (R189). -/
structure Reply where
  seq : Nat
  line : Nat
  accept : Bool
  deriving DecidableEq, Repr

/-- The reply that some characters carry, or none where it is discarded with no effect (R189, R221). -/
def signReplyOf (chars : List RxChar) : Option Reply :=
  match serialFrame chars with
  | .ok ⟨kind, [seq, line, verdict]⟩ =>
    if kind = 0x21#8 ∧ (verdict = 0x00#8 ∨ verdict = 0x01#8) then
      some ⟨seq.toNat, line.toNat, verdict == 0x00#8⟩
    else none
  | _ => none

/-- A byte between the start and end marks, as sent (R220). -/
def stuffByte (b : Byte) : List Byte :=
  if b = 0x7C#8 ∨ b = 0x7D#8 ∨ b = 0x7E#8 then [0x7D#8, b ^^^ 0x20#8] else [b]

/-- A serial frame as sent: start mark, kind, body length, body, check and end mark (R220). -/
def serialBytes (f : SerialFrame) : List Byte :=
  let inner := f.kind :: BitVec.ofNat 8 f.body.length :: f.body
  0x7E#8 :: (inner ++ checkBytes inner).flatMap stuffByte ++ [0x7C#8]

/-- The bytes sent on the sign channel for a frame (R189, R221). -/
def SignFrame.bytes : SignFrame → List Byte
  | .line seq number final words =>
    serialBytes ⟨0x11#8, e1 seq ++ e1 number ++ eFlag final ++ eLine words⟩
  | .keepalive => serialBytes ⟨0x12#8, []⟩

end Sys2Proof.Machine
end

