-- ==== Sys2Proof/Machine/Book.lean ====
section
/-!
DEFINITION. The Booking Book: the booking index (R5 to R8), record well-formedness (R2), the record updates from lanes
and visits (R18 to R21), and what a booking request does at the completion of its index-engine operation (R12 to R17).
-/

namespace Sys2Proof.Machine

/-! ### The booking index (R5 to R8) -/

/-- The value of a reference's character on the index's own scale: 0–9, then 10–35 for A–Z. -/
def indexValue (c : Nat) : Nat := if isDigit c then c - 48 else c - 55

/-- The home bucket of a reference (R5). -/
def homeBucket (ref : Text) : Nat := ref.foldl (fun h c => (h * 37 + indexValue c) % Config.buckets) 0

/-- The bucket after a bucket. -/
def nextBucket (n : Nat) : Nat := (n + 1) % Config.buckets

/-- A lookup from a bucket (R6), over at most `fuel` buckets: the record slot of the first bucket that points to a
record with the reference. -/
def probe (b : Book) (ref : Text) : Nat → Nat → Option Nat
  | 0, _ => none
  | fuel + 1, n =>
    match tableFind n b.index with
    | none => none
    | some slot =>
      if (tableFind slot b.records).any (·.ref == ref) then some slot else probe b ref fuel (nextBucket n)

/-- The record slot of a reference, where it is in the book (R6). -/
def Book.lookup (b : Book) (ref : Text) : Option Nat := probe b ref Config.buckets (homeBucket ref)

/-- The first empty bucket from a bucket on. -/
def emptyBucket (index : List (Nat × Nat)) : Nat → Nat → Nat
  | 0, n => n
  | fuel + 1, n => if (tableFind n index).isNone then n else emptyBucket index fuel (nextBucket n)

/-- Inserts a slot under a reference (R7). -/
def indexInsert (index : List (Nat × Nat)) (ref : Text) (slot : Nat) : List (Nat × Nat) :=
  tablePut (emptyBucket index Config.buckets (homeBucket ref)) slot index

/-- The bucket that holds a slot, searched from a bucket on. -/
def bucketOf (index : List (Nat × Nat)) (slot : Nat) : Nat → Nat → Option Nat
  | 0, _ => none
  | fuel + 1, n =>
    match tableFind n index with
    | none => none
    | some k => if k = slot then some n else bucketOf index slot fuel (nextBucket n)

/-- The cyclic interval (i, j] of buckets holds `h` (R8). -/
def inInterval (i j h : Nat) : Bool :=
  let dist (x : Nat) := (x + Config.buckets - i) % Config.buckets
  0 < dist h && dist h ≤ dist j

/-- The home bucket of the record in a slot. -/
def Book.homeOf (b : Book) (slot : Nat) : Nat := ((tableFind slot b.records).map fun r => homeBucket r.ref).getD 0

/-- The backward shift of a deletion (R8): bucket `i` is vacant and bucket `j` is examined. -/
def backShift (b : Book) : Nat → Nat → Nat → List (Nat × Nat) → List (Nat × Nat)
  | 0, i, _, index => tableDel i index
  | fuel + 1, i, j, index =>
    match tableFind j index with
    | none => tableDel i index
    | some slot =>
      if inInterval i j (b.homeOf slot) then backShift b fuel i (nextBucket j) index
      else backShift b fuel j (nextBucket j) (tablePut i slot index)

/-- Deletes the entry of the record in a slot (R8), while the record still stands. -/
def indexDelete (b : Book) (slot : Nat) : List (Nat × Nat) :=
  match bucketOf b.index slot Config.buckets (b.homeOf slot) with
  | none => b.index
  | some i => backShift b Config.buckets i (nextBucket i) b.index

/-! ### Window counts (R27) -/

/-- Changes the window of a ring that has the given start. -/
def Ring.modWindow (r : Ring) (start : Nat) (f : Window → Window) : Ring :=
  { r with windows := r.windows.map fun w => if w.start = start then f w else w }

/-- The window with a start, where it is in the ring. -/
def Ring.find (r : Ring) (start : Nat) : Option Window := r.windows.find? fun w => w.start == start

/-- Raises a window's booked count for a kind. -/
def Ring.addBooked (r : Ring) (start : Nat) (k : Kind) : Ring :=
  r.modWindow start fun w => { w with booked := w.booked.put k (w.booked.get k + 1) }

/-- Lowers a window's booked count for a kind. -/
def Ring.subBooked (r : Ring) (start : Nat) (k : Kind) : Ring :=
  r.modWindow start fun w => { w with booked := w.booked.put k (w.booked.get k - 1) }

/-- Raises a window's arrived count for a kind. -/
def Ring.addArrived (r : Ring) (start : Nat) (k : Kind) : Ring :=
  r.modWindow start fun w => { w with arrived := w.arrived.put k (w.arrived.get k + 1) }

/-- Lowers a window's arrived count for a kind. -/
def Ring.subArrived (r : Ring) (start : Nat) (k : Kind) : Ring :=
  r.modWindow start fun w => { w with arrived := w.arrived.put k (w.arrived.get k - 1) }

/-- The window has room for a booking of a kind: booked is below quota (R27). -/
def Window.hasRoom (w : Window) (k : Kind) : Bool := w.booked.get k < w.quota.get k

/-! ### Records (R1, R2) -/

/-- A text's length lies in a range. -/
def lengthIn (lo hi : Nat) (t : Text) : Bool := lo ≤ t.length && t.length ≤ hi

/-- A record is well formed (R2): every field lies in its range (R1) and the fields follow the kind's column. -/
def Booking.wellFormed (b : Booking) : Bool :=
  b.ref.length == 8 && (b.teu == 1 || b.teu == 2)
    && b.plate.all (lengthIn 2 10)
    && b.seals.all (lengthIn 4 12) && b.seals.length ≤ 3 && decide b.seals.Nodup
    && b.container.all containerFormat
    && b.group.all (· < 32) && b.block.all (· < 48)
    && (b.container.isSome == (b.kind != .emptyPickup))
    && (b.kind == .exportFull || b.seals.isEmpty)
    && (b.declared.isSome == b.kind.isDrop) && (b.group.isSome == b.kind.isDrop)
    && (b.block.isSome == !b.kind.isDrop)

/-- The record that a BOOK_CREATE would make live: BOOKED, with the window given and no visit (R12). -/
def CreateReq.booking (r : CreateReq) : Booking where
  ref := r.ref
  kind := r.kind
  state := .booked
  window := some r.window
  teu := r.teu
  container := r.container
  plate := r.plate
  seals := r.seals.getD []
  declared := r.declared
  group := r.group
  block := r.block
  visit := none

/-- A record with the given values of a BOOK_AMEND applied (R13). -/
def AmendReq.applyTo (r : AmendReq) (b : Booking) : Booking :=
  { b with
    window := r.window.or b.window
    plate := match r.plate with
      | .unchanged => b.plate
      | .remove => none
      | .value p => some p
    seals := r.seals.getD b.seals
    declared := r.declared.or b.declared
    group := r.group.or b.group
    block := r.block.or b.block
    teu := r.teu.getD b.teu
    container := r.container.or b.container }

/-- Frees the record in a slot and deletes its index entry (R8, R14, R15); the counts are the caller's. -/
def Book.remove (b : Book) (slot : Nat) : Book :=
  { b with records := tableDel slot b.records, index := indexDelete b slot }

/-- Makes a slot live with a record and enters it in the index (R7, R12). -/
def Book.insert (b : Book) (slot : Nat) (r : Booking) : Book :=
  { b with records := tablePut slot r b.records, index := indexInsert b.index r.ref slot, live := b.live + 1 }

/-- Replaces the record in a live slot. -/
def Book.put (b : Book) (slot : Nat) (r : Booking) : Book := { b with records := tablePut slot r b.records }

/-! ### Record updates from lanes and visits (R18 to R21) -/

/-- The test of R18: the record in a leg's slot, where the slot is live and holds the leg's reference. -/
def Book.held (b : Book) (slot : Option Nat) (ref : Text) : Option (Nat × Booking) :=
  match slot with
  | none => none
  | some k =>
    match tableFind k b.records with
    | some r => if r.ref = ref then some (k, r) else none
    | none => none

/-- The admission update for a leg and a visit (R19). -/
def State.admitBooking (s : State) (l : Leg) (h : Handle) : State :=
  match s.book.held l.slot l.ref with
  | none => s
  | some (k, r) =>
    if r.state = .inLane ∧ r.visit = some h then
      { s with
        book := s.book.put k { r with state := .admitted }
        ring := match r.window with
          | some w => s.ring.addArrived w r.kind
          | none => s.ring }
    else if r.state = .noShow then
      { s with
        book := { s.book.put k { r with state := .admitted, visit := some h } with noShow := s.book.noShow - 1 } }
    else s

/-- The revert for a leg and a visit (R20). -/
def State.revertBooking (s : State) (l : Leg) (h : Handle) : State :=
  match s.book.held l.slot l.ref with
  | none => s
  | some (k, r) =>
    if (r.state = .inLane ∨ r.state = .admitted) ∧ r.visit = some h then
      match r.window with
      | some w =>
        { s with
          book := s.book.put k { r with state := .booked, visit := none }
          ring := if r.state = .admitted then s.ring.subArrived w r.kind else s.ring }
      | none =>
        { s with
          book := { s.book.put k { r with state := .noShow, visit := none } with noShow := s.book.noShow + 1 } }
    else s

/-- The visit release for a leg and a visit (R21). -/
def State.releaseBooking (s : State) (l : Leg) (h : Handle) : State :=
  match s.book.held l.slot l.ref with
  | none => s
  | some (k, r) => if r.visit = some h then { s with book := s.book.put k { r with visit := none } } else s

/-! ### Booking requests at completion (R12 to R17) -/

/-- What a completed operation answers: the state, the result code and the response's fields. -/
structure Answer where
  state : State
  result : Result
  fields : List Byte

/-- A refusal changes nothing and carries no fields (R204). -/
def refuse (s : State) (r : Result) : Answer := ⟨s, r, []⟩

/-- The checks of BOOK_CREATE, in order (R12): the first refusal that applies. -/
def createCheck (s : State) (r : CreateReq) : Option Result :=
  let b := r.booking
  if !b.wellFormed then some .badParam
  else if b.container.any (containerCheck · == .badCheckDigit) then some .badCheckDigit
  else if (s.book.lookup r.ref).isSome then some .exists_
  else match s.ring.find r.window with
    | none => some .noSuchWindow
    | some w =>
      if !w.hasRoom r.kind then some .windowFull
      else if Config.bookSlots ≤ s.book.live then some .tableFull
      else none

/-- BOOK_CREATE at its completion (R12). -/
def completeCreate (s : State) (r : CreateReq) : Answer :=
  match createCheck s r with
  | some code => refuse s code
  | none =>
    let slot := tableLowestFree 0 s.book.records
    ⟨{ s with book := s.book.insert slot r.booking, ring := s.ring.addBooked r.window r.kind }, .ok, e2 slot⟩

/-- The checks of BOOK_AMEND on the booking found, in order (R13, steps 3 to 8). -/
def amendCheck (s : State) (r : AmendReq) (b : Booking) : Option Result :=
  if b.state = .inLane then some .inUse
  else if b.state = .admitted ∨ b.state = .noShow then some .wrongState
  else if !(r.applyTo b).wellFormed then some .badParam
  else if r.container.any (containerCheck · == .badCheckDigit) then some .badCheckDigit
  else match r.window with
    | none => none
    | some start =>
      match s.ring.find start with
      | none => some .noSuchWindow
      | some w => if b.window ≠ some start ∧ !w.hasRoom b.kind then some .windowFull else none

/-- The move of a booking between window counts when its window changes (R13). -/
def Ring.moveBooked (r : Ring) (old new : Option Nat) (k : Kind) : Ring :=
  match old, new with
  | some a, some b => if a = b then r else (r.subBooked a k).addBooked b k
  | _, _ => r

/-- BOOK_AMEND at its completion (R13). -/
def completeAmend (s : State) (r : AmendReq) : Answer :=
  if r.ref.length ≠ 8 then refuse s .badParam
  else match s.book.lookup r.ref with
    | none => refuse s .notFound
    | some slot =>
      match tableFind slot s.book.records with
      | none => refuse s .notFound
      | some b =>
        match amendCheck s r b with
        | some code => refuse s code
        | none =>
          ⟨{ s with
              book := s.book.put slot (r.applyTo b)
              ring := s.ring.moveBooked b.window (r.applyTo b).window b.kind }, .ok, []⟩

/-- The record of a reference, or the refusal of a request that names none (R14 to R16). -/
def findBooking (s : State) (ref : Text) : Except Result (Nat × Booking) :=
  if ref.length ≠ 8 then .error .badParam
  else match s.book.lookup ref with
    | none => .error .notFound
    | some slot =>
      match tableFind slot s.book.records with
      | none => .error .notFound
      | some b => .ok (slot, b)

/-- Frees a BOOKED or NO_SHOW booking, or one that counts nowhere (R14, R15): its entry, its slot and its counts. -/
def freeBooking (s : State) (slot : Nat) (b : Booking) : State :=
  let book := s.book.remove slot
  { s with
    book := { book with
      live := book.live - 1
      noShow := if b.state = .noShow then book.noShow - 1 else book.noShow }
    ring := match b.state, b.window with
      | .booked, some w => s.ring.subBooked w b.kind
      | _, _ => s.ring }

/-- BOOK_CANCEL at its completion (R14). -/
def completeCancel (s : State) (ref : Text) : Answer :=
  match findBooking s ref with
  | .error code => refuse s code
  | .ok (slot, b) =>
    match b.state with
    | .inLane => refuse s .inUse
    | .admitted => refuse s .wrongState
    | .booked | .noShow => ⟨freeBooking s slot b, .ok, []⟩

/-- BOOK_RETIRE at its completion (R15). -/
def completeRetire (s : State) (ref : Text) : Answer :=
  match findBooking s ref with
  | .error code => refuse s code
  | .ok (slot, b) =>
    match b.state with
    | .booked | .inLane => refuse s .wrongState
    | .noShow => ⟨freeBooking s slot b, .ok, []⟩
    | .admitted =>
      if b.window.isSome then refuse s .windowOpen
      else if b.visit.isSome then refuse s .inUse
      else ⟨freeBooking s slot b, .ok, []⟩

/-- BOOK_QUERY at its completion (R16). -/
def completeQuery (s : State) (ref : Text) : Answer :=
  match findBooking s ref with
  | .error code => refuse s code
  | .ok (slot, b) => ⟨s, .ok, e2 slot ++ eBooking b⟩

/-- BOOK_SCAN at its completion (R17): the first live slot from the start index on whose state matches. -/
def completeScan (s : State) (filter : Option BookingState) (start : Nat) : Answer :=
  if Config.bookSlots ≤ start then refuse s .badParam
  else match s.book.records.find? fun p => start ≤ p.1 && filter.all (· == p.2.state) with
    | none => refuse s .notFound
    | some (slot, b) => ⟨s, .ok, e2 slot ++ eBooking b ++ e2 (slot + 1)⟩

/-- A booking request at the completion of its operation (R10). -/
def completeBooking (s : State) : BookReq → Answer
  | .create r => completeCreate s r
  | .amend r => completeAmend s r
  | .cancel ref => completeCancel s ref
  | .retire ref => completeRetire s ref
  | .query ref => completeQuery s ref
  | .scan filter start => completeScan s filter start

end Sys2Proof.Machine
end

