-- ==== Sys2Proof/Machine/Windows.lean ====
section
/-!
DEFINITION. The Window Ring: laying a ring (R28), retirement (R29 to R31) with the booking sweep (R22), the arrival
test (R33) and late transfer (R35, R36).
-/

namespace Sys2Proof.Machine

/-- L, or 0 while no plan is present. -/
def Ring.span (r : Ring) : Nat := r.length.getD 0

/-- The retirement minute of a window: S + L + G (R26), formed exactly (R25). -/
def Ring.retireMinute (r : Ring) (w : Window) : Nat := w.start + r.span + r.grace

/-- A minute lies in the ON_TIME range of a window start: S − E ≤ a < S + L + G (R26). -/
def Ring.onTime (r : Ring) (start a : Nat) : Bool := start ≤ a + r.early && a < start + r.span + r.grace

/-- A window laid or appended now: the default quotas, nothing booked and nothing arrived (R28, R30). -/
def Ring.fresh (r : Ring) (start : Nat) : Window := ⟨start, r.defaults, .all 0, .all 0⟩

/-- The ring of a WINDOW_PLAN taken (R28): 96 windows from S0, a length L apart. -/
def Ring.plan (r : Ring) (s0 len e g rr : Nat) : Ring :=
  let r' := { r with length := some len, early := e, grace := g, reach := rr }
  { r' with windows := (List.range 96).map fun i => r'.fresh (s0 + i * len) }

/-- The sweep of one booking whose window retires (R22). -/
def sweepBooking (start : Nat) (b : Booking) : Booking :=
  if b.window = some start then
    { b with window := none, state := if b.state = .booked then .noShow else b.state }
  else b

/-- The sweep counts a booking into NO_SHOW (R22). -/
def swept (start : Nat) (b : Booking) : Bool := b.window == some start && b.state == .booked

/-- The retirement sweep of a window start over the book (R22). -/
def Book.sweep (b : Book) (start : Nat) : Book :=
  { b with
    records := b.records.map fun p => (p.1, sweepBooking start p.2)
    noShow := b.noShow + (b.records.filter fun p => swept start p.2).length }

/-- The ring without its oldest window and with a window appended at the newest end, unless its start would exceed the
largest gate minute (R30). -/
def Ring.advance (r : Ring) : Ring :=
  match r.windows, r.windows.getLast? with
  | _ :: rest, some newest =>
    let next := newest.start + r.span
    { r with windows := if next ≤ Config.maxMinute then rest ++ [r.fresh next] else rest }
  | _, _ => r

/-- The oldest window is due to retire at a gate minute (R29). -/
def Ring.due (r : Ring) (minute : Nat) : Bool :=
  match r.windows with
  | [] => false
  | w :: _ => r.retireMinute w ≤ minute

/-- The retirement of the oldest window, taken whole (R30). -/
def State.retireOne (s : State) : State :=
  match s.ring.windows with
  | [] => s
  | w :: _ => { s with book := s.book.sweep w.start, ring := s.ring.advance }

/-- A retirement test over at most `fuel` windows (R29): windows retire oldest first while one is due. -/
def retireLoop (minute : Nat) : Nat → State → State
  | 0, s => s
  | fuel + 1, s => if s.ring.due minute then retireLoop minute fuel s.retireOne else s

/-- A retirement test against the current gate minute (R29). Starts rise along a ring and no window starting after the
minute retires, so minute + 1 retirements are never exceeded. -/
def State.retireDue (s : State) : State := retireLoop s.time.minute (s.time.minute + 1) s

/-! ### The arrival test and late transfer (R33 to R36) -/

/-- The outcomes of the arrival test (R33). -/
inductive Arrival where
  | early
  | onTime
  | late
  deriving DecidableEq, Repr

/-- The arrival test of an arrival minute against a window start (R33). -/
def Ring.arrivalTest (r : Ring) (a start : Nat) : Arrival :=
  if a + r.early < start then .early
  else if a < start + r.span + r.grace then .onTime
  else .late

/-- The windows offered to a LATE booking: the first R in the ring whose ON_TIME range contains the arrival minute
(R35). -/
def Ring.offered (r : Ring) (a : Nat) : List Window := (r.windows.filter fun w => r.onTime w.start a).take r.reach

/-- The offered window that takes a LATE booking of a kind: the first with room (R35). -/
def Ring.transferTo (r : Ring) (a : Nat) (k : Kind) : Option Window := (r.offered a).find? fun w => w.hasRoom k

/-! ### Window requests -/

/-- Replaces the given quotas of a window (R37). -/
def Window.setQuotas (w : Window) (q : List (Option Nat)) : Window :=
  match q with
  | [a, b, c, d] =>
    { w with quota := ⟨a.getD w.quota.exportFull, b.getD w.quota.emptyReturn, c.getD w.quota.importPickup,
        d.getD w.quota.emptyPickup⟩ }
  | _ => w

/-- A gate minute's four bytes. A sum above the largest gate minute has no encoding in the manual, and its bytes are
free (R25, R40, R219; notes/assumptions/20). -/
def minuteBytes (k : Nat) (m : Nat) : List Byte :=
  if m ≤ Config.maxMinute then e4 m else Config.freeBytes k 4

/-- A window's fields in a response (R40): start, end, retirement minute, then quota, booked and arrived of each
kind. -/
def eWindow (r : Ring) (k : Nat) (w : Window) : List Byte :=
  e4 w.start ++ minuteBytes k (w.start + r.span) ++ minuteBytes (k + 4) (r.retireMinute w)
    ++ allKinds.flatMap fun x => e2 (w.quota.get x) ++ e2 (w.booked.get x) ++ e2 (w.arrived.get x)

/-- The plan and ring summary of a WINDOW_QUERY with no start (R40). -/
def ePlan (s : State) : List Byte :=
  e1 s.ring.span ++ e4 ((s.ring.windows.head?.map (·.start)).getD 0)
    ++ e4 ((s.ring.windows.getLast?.map (·.start)).getD 0) ++ e1 s.ring.windows.length
    ++ e1 s.ring.early ++ e1 s.ring.grace ++ e1 s.ring.reach
    ++ (allKinds.flatMap fun x => e2 (s.ring.defaults.get x)) ++ e4 s.time.minute

end Sys2Proof.Machine
end

