-- ==== Sys2Proof/Machine/Visits.lean ====
section
/-!
DEFINITION. The visit's way through its lane: opening (R71, R72), the entries to HELD, YARD_WAIT and RELEASING (R77,
R79), the dropping of legs (R155), the departure (R79, R84) and the completion of closing (R82).
-/

namespace Sys2Proof.Machine

/-! ### Opening (R60, R62, R71, R72) -/

/-- No reason stands. -/
def Reasons.none : Reasons := ⟨false, false, false, false, false, false, false, false⟩

/-- No reason stands in the set. -/
def Reasons.isEmpty (r : Reasons) : Bool := r == .none

/-- A position's stability state when the visit opens (R131). -/
def Stability.opened : Stability := ⟨0, 0, none, ⟨none, none, none, none, none⟩, none⟩

/-- A visit record at its opening (R62, R95, R96, R111, R131, R133). -/
def Visit.opened (n : Lane) (minute : Nat) : Visit where
  lane := n
  state := .entering
  arrival := minute
  card := .none
  plate := none
  linkLoss := false
  reasons := .none
  legs := []
  holdStart := none
  outcome := none
  source := none
  rejectReason := none
  signFault := false
  unreadable := false
  settleExpired := false
  timeoutDue := false
  plates := []
  containers := ⟨[], []⟩
  seals := ⟨⟨[], false⟩, ⟨[], false⟩⟩
  outcomes := none
  grading := .isOpen
  dropLegs := none
  stability := ⟨.opened, .opened⟩

/-- The lowest-numbered free slot of the Visit Table (R60). -/
def State.lowestFreeSlot (s : State) : Option (Fin 64) :=
  (List.finRange 64).find? fun v => (s.visit v).isNone

/-- A lane opens a visit in a free slot (R71): the slot keeps its generation, and the lane leaves the open-wait
list. -/
def State.openVisit (s : State) (n : Lane) (v : Fin 64) : State :=
  let s := { s with
    visits := s.visits.set v { s.visits[v] with visit := some (.opened n s.time.minute) }
    freeCount := s.freeCount - 1
    openWait := s.openWait.filter (· != n) }
  (s.modLane n fun l => { l with resident := some v, entryCleared := false }).loadDwell n .oneShot .approach

/-- A lane joins the newest end of the open-wait list; no lane is listed twice (R72). -/
def State.joinWait (s : State) (n : Lane) : State :=
  { s with openWait := if n ∈ s.openWait then s.openWait else s.openWait ++ [n] }

/-- A lane leaves the open-wait list (R72). -/
def State.leaveWait (s : State) (n : Lane) : State := { s with openWait := s.openWait.filter (· != n) }

/-- An occupied entry loop at a lane with its closing mark clear (R71, R72): a lane IDLE in AUTO opens a visit in the
lowest free slot, and a lane BLOCKED in AUTO joins the open-wait list. -/
def State.takeEntry (s : State) (n : Lane) : State :=
  if (s.lane n).mode = .auto ∧ (s.lane n).closing = false then
    match s.laneState n with
    | .idle =>
      match s.lowestFreeSlot with
      | some v => s.openVisit n v
      | none => s
    | .blocked => s.joinWait n
    | .occupied | .releasing | .closed => s
  else s

/-! ### Entries to HELD, YARD_WAIT and RELEASING (R64, R77, R79) -/

/-- A visit enters HELD (R77, R150): the hold start is recorded, the hold limit is loaded and the visit joins the
change set. -/
def State.enterHeld (s : State) (n : Lane) (v : Fin 64) : State :=
  ((s.modVisit v fun x =>
      { x with state := .held, holdStart := some (s.time.minute, s.time.phase) }).loadDwell n .oneShot .hold).join
    (.visit v)

/-- A visit enters YARD_WAIT and the yard-wait queue (R77, R172). -/
def State.enterYardWait (s : State) (n : Lane) (v : Fin 64) : State :=
  let s := ((s.modVisit v fun x =>
      { x with state := .yardWait, holdStart := some (s.time.minute, s.time.phase) }).loadDwell n .oneShot
        .yardWait).join (.visit v)
  { s with yard := { s.yard with queue := s.yard.queue ++ [s.handle v] } }

/-- The clear limit is loaded in repeat form and the exit-seen mark is set by the exit loop's level, as a visit or a
lane enters RELEASING (R79, R83). -/
def State.startReleasing (s : State) (n : Lane) : State :=
  (s.modLane n fun l => { l with exitSeen := s.loops[n].exit }).loadDwell n .repeating .clear

/-- A visit enters RELEASING (R79). A print due mark whose print job has not started is cleared as the visit leaves
DIRECTING (R187). -/
def State.enterReleasing (s : State) (n : Lane) (v : Fin 64) : State :=
  ((s.modVisit v fun x => { x with state := .releasing, holdStart := none, timeoutDue := false }).startReleasing
    n).modSign n fun g => { g with printDue := false }

/-! ### Dropping legs (R155, R156, R157) -/

/-- A leg takes disposition DROPPED and loses its destination (R155). -/
def Leg.drop (l : Leg) : Leg := { l with disposition := .dropped, dest := none }

/-- Some legs of a visit are dropped, in list order, each with the revert of its booking (R155). -/
def State.dropLegs (s : State) (v : Fin 64) (which : Leg → Bool) : State :=
  match s.visit v with
  | none => s
  | some x =>
    ((x.legs.filter which).foldl (fun t l => t.revertBooking l (s.handle v)) s).modVisit v fun y =>
      { y with legs := y.legs.map fun l => if which l then l.drop else l }

/-- A held visit is turned away (R156, R157): every leg is dropped, and the visit enters RELEASING with the source and
the outcome given. -/
def State.turnAway (s : State) (n : Lane) (v : Fin 64) (src : DecisionSource) (out : ReleaseOutcome) : State :=
  ((s.dropLegs v fun _ => true).modVisit v fun x => { x with source := some src, outcome := some out }).enterReleasing
    n v

/-! ### Leaving the lane (R79, R82, R84) -/

/-- A lane completes closing (R82). -/
def State.completeClosing (s : State) (n : Lane) : State :=
  (s.modLane n fun l => { l with mode := .closed, closing := false }).join (.lane n)

/-- The lane's part of a departure (R79, R84): the timer stops, the clear-overdue mark and the abort subject (R188) are
removed, and the lane completes closing or takes an occupied entry loop. -/
def State.afterDeparture (s : State) (n : Lane) : State :=
  let s := (s.modLane n fun l =>
      { l with resident := none, releasing := false, dwell := .stopped, clearOverdue := false }).modSign n fun g =>
        { g with abortSubject := none }
  if (s.lane n).closing then s.completeClosing n
  else if s.loops[n].entry then s.takeEntry n
  else s

/-- The state and the reject reason that a release outcome gives at the departure (R79). -/
def departed : Option ReleaseOutcome → VisitState × Option RejectReason
  | some .turnAway => (.rejected, some .turnAway)
  | some .holdTimeout => (.rejected, some .holdTimeout)
  | some .admission | none => (.enRoute, none)

/-- The departure of a visit over the exit loop (R79). -/
def State.departVisit (s : State) (n : Lane) (v : Fin 64) : State :=
  ((s.modVisit v fun x =>
      { x with state := (departed x.outcome).1, rejectReason := (departed x.outcome).2, outcome := none }).join
    (.visit v)).afterDeparture n

end Sys2Proof.Machine
end

