-- ==== Sys2Proof/Machine/Signs.lean ====
section
/-!
DEFINITION. The Sign Units: what a lane shows (R184 to R188), the sign jobs (R190 to R194, R197) and the report of
directions (R187, R195), with the entry of a visit to DIRECTING (R78).
-/

namespace Sys2Proof.Machine

/-! ### Lines (R184) -/

/-- The lines of a class, and the entries of its mirror (R183, R190). A ticket has up to 10 (R184), and its mirror has 10
entries: DESIGN CHOICE, notes/assumptions/24. -/
def SignClass.lines : SignClass → Nat
  | .line2 => 2
  | .line4 => 4
  | .ticket => 10

/-- The width of a class's lines, in columns. -/
def SignClass.width : SignClass → Nat
  | .line2 => 16
  | .line4 => 20
  | .ticket => 32

/-- The width of a line: the words' lengths and one column for each gap. -/
def lineWidth : Line → Nat
  | [] => 0
  | [w] => w.length
  | w :: rest => w.length + 1 + lineWidth rest

/-- The words that still fit after the first, with `left` columns left. -/
def truncRest (left : Nat) : Line → Line
  | [] => []
  | w :: rest =>
    if w.length + 1 ≤ left then w :: truncRest (left - (w.length + 1)) rest
    else if 2 ≤ left then [w.take (left - 1)]
    else []

/-- A line truncated to a width. -/
def truncLine (width : Nat) : Line → Line
  | [] => []
  | w :: rest => if w.length ≤ width then w :: truncRest (width - w.length) rest else [w.take width]

/-- A list of lines filled with blank lines to a number of lines. -/
def padLines (n : Nat) (ls : List Line) : List Line := (ls ++ List.replicate n []).take n

/-! ### Content (R185 to R187) -/

/-- A lane's number as a word. -/
def laneWord (n : Lane) : Text := digits2 (n.val + 1)

/-- A line that begins with LANE and the lane's number. -/
def laneLine (n : Lane) (word : Text) : Line := [Text.of "LANE", laneWord n, word]

/-- The first words of a leg line and the route text of the leg's destination. -/
def destWords (s : State) : Dest → Line × Text
  | .block b => ([Text.of "BLOCK", (s.yard.blocks[b].code).getD []], (s.yard.blocks[b].route).getD [])
  | .bay b => ([Text.of "BAY", s.yard.bays[b].code], s.yard.bays[b].route)

/-- The leg line of a destination (R186): the route text is left out where it is empty or does not fit. -/
def legLine (s : State) (width : Nat) (d : Dest) : Line :=
  let (words, route) := destWords s d
  if route ≠ [] ∧ lineWidth (words ++ [route]) ≤ width then words ++ [route] else words

/-- A leg is directed: its disposition is YARD or INSPECT and its destination is present (R186). -/
def Leg.directed (l : Leg) : Bool := (l.disposition == .yard || l.disposition == .inspect) && l.dest.isSome

/-- The legs that give leg lines, drop legs first (R186). -/
def directedLegs (x : Visit) : List Leg :=
  let ls := x.legs.filter Leg.directed
  ls.filter (fun l => l.kind.any Kind.isDrop) ++ ls.filter (fun l => !l.kind.any Kind.isDrop)

/-- The leg line of a directed leg. -/
def Leg.line (s : State) (width : Nat) (l : Leg) : Line :=
  match l.dest with
  | some d => legLine s width d
  | none => []

/-- The plate line (R186). -/
def plateLine (n : Lane) (x : Visit) : Line :=
  match x.plate with
  | some p => [p.text]
  | none => [Text.of "LANE", laneWord n]

/-- The directions of a visit on a display (R186). -/
def directions (s : State) (n : Lane) (cls : SignClass) (x : Visit) : List Line :=
  let legs := (directedLegs x).map (Leg.line s cls.width)
  match cls, legs with
  | .line2, a :: b :: _ => [a, b]
  | _, _ => plateLine n x :: legs

/-- The ticket of a visit (R187). -/
def ticket (s : State) (n : Lane) (x : Visit) : List Line :=
  plateLine n x :: (directedLegs x).flatMap fun l => [[Text.of "BOOKING", l.ref], Leg.line s 32 l]

/-- The turn-away content (R185). -/
def turnAwayLines (desk : Text) : List Line :=
  [[Text.of "SEE", Text.of "GATE", Text.of "OFFICE"], if desk = [] then [] else [desk]]

/-- The content of a display while a visit is resident (R185). -/
def visitLines (s : State) (n : Lane) (g : Sign) (x : Visit) : List Line :=
  match x.state with
  | .entering => [[Text.of "DRIVE", Text.of "TO"], [Text.of "STOP", Text.of "LINE"]]
  | .checking => [[Text.of "PLEASE", Text.of "WAIT"]]
  | .held | .yardWait => [[Text.of "PLEASE", Text.of "WAIT"], [Text.of "GATE", Text.of "CLERK"]]
  | .directing => directions s n g.cls x
  | .releasing => if x.outcome = some .admission then directions s n g.cls x else turnAwayLines g.desk
  | .enRoute | .rejected => []

/-- The content of a display (R185). -/
def displayLines (s : State) (n : Lane) (g : Sign) : List Line :=
  match s.laneState n with
  | .idle => [laneLine n (if (s.lane n).mode = .auto then Text.of "OPEN" else Text.of "STAFFED")]
  | .blocked => [laneLine n (Text.of "WAIT")]
  | .closed => [laneLine n (Text.of "CLOSED")]
  | .releasing => turnAwayLines g.desk
  | .occupied =>
    match s.residentVisit n with
    | some (_, x) => visitLines s n g x
    | none => []

/-- The composed content of a lane's sign, truncated to its class (R184 to R187). -/
def content (s : State) (n : Lane) : List Line :=
  let g := s.sign n
  match g.cls with
  | .ticket =>
    match s.residentIn n .directing with
    | some (_, x) => (ticket s n x).map (truncLine 32)
    | none => []
  | .line2 | .line4 => (padLines g.cls.lines (displayLines s n g)).map (truncLine g.cls.width)

/-- The subject of a lane's content (R188): the resident visit, or the abort subject. -/
def signSubject (s : State) (n : Lane) : Option Handle :=
  match (s.lane n).resident with
  | some v => some (s.handle v)
  | none => (s.sign n).abortSubject

/-- The content is directions of the subject visit (R185, R187, R191). -/
def showsDirections (s : State) (n : Lane) : Bool :=
  match s.residentVisit n with
  | some (_, x) =>
    x.state == .directing || ((s.sign n).cls != .ticket && x.state == .releasing && x.outcome == some .admission)
  | none => false

/-! ### Differences and jobs (R190 to R192) -/

/-- The numbers of the lines that differ from the mirror, counted from 1 (R190). -/
def differing (lines : List Line) (mirror : List (Option Line)) : List Nat :=
  ((lines.zip mirror).zipIdx.filter fun p => p.1.2 != some p.1.1).map fun p => p.2 + 1

/-- An idle display shows its content already: no line differs from the mirror (R195, case 4). -/
def contentShown (s : State) (n : Lane) : Bool :=
  (s.sign n).cls != .ticket && (s.sign n).job == .idle && (differing (content s n) (s.sign n).mirror).isEmpty

/-- The first line number and the snapshot of the job that is due (R191). With `refresh`, a refresh event is taken by
an idle REPEAT display. -/
def jobDue (s : State) (n : Lane) (refresh : Bool) : Option (Nat × List Line) :=
  let lines := content s n
  let diff := differing lines (s.sign n).mirror
  match (s.sign n).cls, (s.sign n).effective with
  | .ticket, _ => if (s.sign n).printDue then some (1, lines) else none
  | _, .off => none
  | _, .once =>
    match diff.head?, diff.getLast? with
    | some a, some b => some (a, (lines.take b).drop (a - 1))
    | _, _ => none
  | _, .repeating => if refresh || !diff.isEmpty then some (1, lines) else none

/-- The LINE frame of the awaited line of a job: the final mark is set on the last line of a ticket (R189). -/
def Job.frame (j : Job) (cls : SignClass) : SignFrame :=
  .line j.seq j.awaited (cls == .ticket && j.awaited + 1 == j.first + j.lines.length)
    (j.lines.getD (j.awaited - j.first) [])

/-- Sends a line of a job (R192): the frame carries the current sequence value, the sequence advances, and the reply
timer is loaded with the sign reply limit. -/
def Sign.sendLine (g : Sign) (limit : Nat) (j : Job) (line : Nat) : Sign :=
  let j := { j with awaited := line, seq := g.seq }
  { g with
    job := .sending j
    seq := (g.seq + 1) % 256
    reply := limit
    replyDue := false
    sent := g.sent ++ [j.frame g.cls] }

/-- Starts a job (R191) and sends its first line; a TICKET job clears the print due mark. -/
def State.beginJob (s : State) (n : Lane) (first : Nat) (lines : List Line) : State :=
  let j : Job := ⟨lines, first, first, 0, signSubject s n, showsDirections s n⟩
  s.modSign n fun g : Sign =>
    Sign.sendLine { g with printDue := if g.cls = SignClass.ticket then false else g.printDue }
      (s.lane n).limits.signReply j first

/-- Starts the job that is due at a lane whose job state is IDLE (R191). -/
def startJobOn (refresh : Bool) (n : Lane) (s : State) : State :=
  if (s.sign n).job = .idle then
    match jobDue s n refresh with
    | some (first, lines) => s.beginJob n first lines
    | none => s
  else s

/-- Starts the jobs that are due at the end of an event (R188, R191), lane by lane. -/
def State.startJobs (s : State) : State := forLanes (startJobOn false) s

/-! ### The report of directions (R195) and the entry to DIRECTING (R78, R187) -/

/-- The Sign Unit reports the directions of a DIRECTING visit done, and the Lane Unit moves the visit to RELEASING. -/
def State.report (s : State) (n : Lane) : State :=
  match s.residentIn n .directing with
  | some (v, _) =>
    if (s.sign n).reportMark then s
    else (s.modSign n fun g => { g with reportMark := true }).enterReleasing n v
  | none => s

/-- A visit enters DIRECTING (R78): the dwell timer stops, the report mark is cleared, a TICKET lane's print due mark is
set (R187), and the directions are reported at once in cases 3 and 4 of R195. -/
def State.enterDirecting (s : State) (n : Lane) (v : Fin 64) : State :=
  let s := ((s.modVisit v fun x => { x with state := .directing, holdStart := none }).stopDwell n).modSign n fun g =>
    { g with reportMark := false, printDue := g.cls == .ticket }
  if (s.sign n).effective = .off ∨ contentShown s n then s.report n else s

/-! ### Completion, failure and abandonment of a job (R192, R193, R197) -/

/-- Every mirror entry of a class, UNKNOWN. -/
def unknownMirror (cls : SignClass) : List (Option Line) := List.replicate cls.lines none

/-- A job completes (R192): the job record is removed, the report of R195 is given in cases 1 and 4, and the next job
starts where one is due. -/
def State.completeJob (s : State) (n : Lane) (j : Job) : State :=
  let s := s.modSign n fun g => { g with job := .idle }
  let own : Bool := match s.residentIn n .directing with
    | some (v, _) => j.directions && j.subject == some (s.handle v)
    | none => false
  startJobOn false n (if own || contentShown s n then s.report n else s)

/-- An ACCEPT of the awaited line is taken (R192). -/
def State.acceptLine (s : State) (n : Lane) (j : Job) : State :=
  let s := s.modSign n fun g =>
    { g with
      reply := 0
      replyDue := false
      mirror := g.mirror.set (j.awaited - 1) (some (j.lines.getD (j.awaited - j.first) [])) }
  if j.awaited + 1 < j.first + j.lines.length then
    s.modSign n fun g => g.sendLine (s.lane n).limits.signReply j (j.awaited + 1)
  else s.completeJob n j

/-- The mark of a failed job on the visit its subject handle names, and the visit's join (R193, step 3). -/
def State.markSignFault (s : State) (subject : Option Handle) : State :=
  match subject with
  | none => s
  | some h =>
    if (s.named h).isSome then (s.modVisit h.slot fun x => { x with signFault := true }).join (.visit h.slot) else s

/-- A job fails (R193). -/
def State.failJob (s : State) (n : Lane) (j : Job) : State :=
  let s := (s.modSign n fun g =>
      { g with
        job := .hold
        reply := 0
        replyDue := false
        mirror := unknownMirror g.cls
        faults := satSucc g.faults }).markSignFault j.subject
  match s.residentIn n .directing with
  | some (v, _) => if j.subject = some (s.handle v) then s.report n else s
  | none => s

/-- An abandonment (R197, R199): the reply timer stops, the job state becomes IDLE from SENDING or HOLD, and the mirror
becomes UNKNOWN. -/
def Sign.abandon (g : Sign) : Sign :=
  { g with job := .idle, reply := 0, replyDue := false, printDue := false, mirror := unknownMirror g.cls }

/-- The abandonment of a LANE_RESET or a GATE_RESTART, which removes the report mark and the abort subject too
(R197). -/
def Sign.clearForReset (g : Sign) : Sign := { g.abandon with reportMark := false, abortSubject := none }

/-! ### Replies, refresh events and the reply timer (R189, R192 to R194) -/

/-- A reply that matches the sequence value and the line awaited is taken; any other is ignored (R189). -/
def State.takeReply (s : State) (n : Lane) (r : Reply) : State :=
  match (s.sign n).job with
  | .sending j =>
    if r.seq = j.seq ∧ r.line = j.awaited then
      if r.accept then s.acceptLine n j else s.failJob n j
    else s
  | .idle | .hold => s

/-- A refresh event at the Sign Unit (R194). -/
def State.refreshSign (s : State) (n : Lane) : State :=
  match (s.sign n).job with
  | .sending _ => s
  | .hold => startJobOn false n (s.modSign n fun g => { g with job := .idle })
  | .idle =>
    match (s.sign n).cls, (s.sign n).effective with
    | .ticket, _ => s
    | _, .off => s
    | _, .once => s.modSign n fun g => { g with sent := g.sent ++ [.keepalive] }
    | _, .repeating => startJobOn true n s

end Sys2Proof.Machine
end

