-- ==== Sys2Proof/Machine/Yard.lean ====
section
/-!
DEFINITION. The Yard Allocator: allocation (R168 to R171), the yard-wait queue and its retry (R172 to R174), the release
of a leg's place (R178), and the rejection of a lane-resident visit, which releases and drops its legs (R83, R144, R180).
-/

namespace Sys2Proof.Machine

/-! ### Allocation (R168 to R171) -/

/-- A block accepts a kind of drop leg (R161). -/
def Accepts.takes : Accepts → Kind → Bool
  | .exportFull, k => k == .exportFull
  | .emptyReturn, k => k == .emptyReturn
  | .both, k => k.isDrop

/-- The TEU tentatively given to earlier legs of the same allocation in a block (R169). -/
def tentativeTeu (tb : List (Fin 48 × Nat)) (b : Fin 48) : Nat :=
  ((tb.filter fun p => p.1 == b).map fun p => p.2).sum

/-- A block takes a yard drop leg (R169): it is OPEN, accepts the kind, and the TEU fits under its capacity. -/
def Block.fits (bl : Block) (k : Kind) (teu tentative : Nat) : Bool :=
  bl.state == .isOpen && bl.accepts.any (·.takes k) && bl.occupied + bl.reserved + teu + tentative ≤ bl.capacity

/-- A leg is to be placed (R168): its disposition is YARD or INSPECT and its done mark is clear. -/
def Leg.toPlace (l : Leg) : Bool := (l.disposition == .yard || l.disposition == .inspect) && !l.done

/-- The block of a yard drop leg (R169): the first in its booking's stack group that takes it. -/
def State.blockFor (s : State) (tb : List (Fin 48 × Nat)) (l : Leg) (k : Kind) : Option (Fin 48) :=
  match s.book.held l.slot l.ref with
  | none => none
  | some (_, bk) =>
    match bk.group with
    | none => none
    | some g =>
      if h : g < 32 then
        (s.yard.groups[g]).find? fun b => s.yard.blocks[b].fits k (l.teu.getD 0) (tentativeTeu tb b)
      else none

/-- The block of a pickup leg (R170): its booking's pickup block, when it is defined. -/
def State.pickupBlock (s : State) (l : Leg) : Option (Fin 48) :=
  match s.book.held l.slot l.ref with
  | none => none
  | some (_, bk) =>
    match bk.block with
    | none => none
    | some b => if h : b < 48 then if s.yard.blocks[b].state = .undefined then none else some ⟨b, h⟩ else none

/-- The bay of an inspection leg (R171): the first OPEN bay with fewer than 2 legs, those tentatively given
included. -/
def State.bayFor (s : State) (ty : List (Fin 4)) : Option (Fin 4) :=
  (List.finRange 4).find? fun b => s.yard.bays[b].isOpen && s.yard.bays[b].places.length + ty.count b < 2

/-- The tentative destination of a leg to be placed (R168). -/
def State.destFor (s : State) (tb : List (Fin 48 × Nat)) (ty : List (Fin 4)) (l : Leg) : Option Dest :=
  match l.kind with
  | none => none
  | some k =>
    if k.isDrop then
      if l.disposition = .inspect then (s.bayFor ty).map .bay else (s.blockFor tb l k).map .block
    else if l.disposition = .inspect then none
    else (s.pickupBlock l).map .block

/-- The tentative destinations of a visit's legs, leg by leg (R168): none where some leg to be placed has none. A leg
passed over has an absent destination in the list. -/
def State.placeLegs (s : State) : List (Fin 48 × Nat) → List (Fin 4) → List Leg → Option (List (Option Dest))
  | _, _, [] => some []
  | tb, ty, l :: rest =>
    if l.toPlace then
      match s.destFor tb ty l with
      | none => none
      | some (.block b) =>
        let tb' := if l.kind.any Kind.isDrop then (b, l.teu.getD 0) :: tb else tb
        (s.placeLegs tb' ty rest).map (some (.block b) :: ·)
      | some (.bay b) => (s.placeLegs tb (b :: ty) rest).map (some (.bay b) :: ·)
    else (s.placeLegs tb ty rest).map (none :: ·)

/-- The record of one committed destination (R162, R166, R168): a yard drop leg's TEU is reserved, and an inspection leg
joins its bay's place list. `i` is the leg number. -/
def State.commitDest (s : State) (h : Handle) (i : Nat) (l : Leg) : Option Dest → State
  | none => s
  | some (.block b) =>
    if l.kind.any Kind.isDrop then s.modBlock b fun bl => { bl with reserved := bl.reserved + l.teu.getD 0 } else s
  | some (.bay b) => s.modBay b fun y => { y with places := y.places ++ [⟨h, i⟩] }

/-- The records of all committed destinations of a visit, in leg-list order. -/
def State.commitAll (s : State) (h : Handle) (legs : List Leg) (dests : List (Option Dest)) : State :=
  (legs.zip dests).zipIdx.foldl (fun t p => t.commitDest h (p.2 + 1) p.1.1 p.1.2) s

/-- A leg takes the destination given by an allocation; a leg passed over keeps its own. -/
def Leg.setDest (l : Leg) : Option Dest → Leg
  | some d => { l with dest := some d }
  | none => l

/-- An allocation that commits, all legs or none (R168). The visit's state is the caller's. -/
def State.place (s : State) (v : Fin 64) : Option State :=
  match s.visit v with
  | none => none
  | some x =>
    match s.placeLegs [] [] x.legs with
    | none => none
    | some dests =>
      some ((s.commitAll (s.handle v) x.legs dests).modVisit v fun y =>
        { y with legs := List.zipWith Leg.setDest y.legs dests })

/-- An allocation asked for by an admission (R168): the visit enters DIRECTING or YARD_WAIT. -/
def State.allocate (s : State) (n : Lane) (v : Fin 64) : State :=
  match s.place v with
  | some t => t.enterDirecting n v
  | none => s.enterYardWait n v

/-! ### The yard-wait queue (R172 to R174) -/

/-- A visit leaves the yard-wait queue; the other entries keep their order. -/
def State.leaveQueue (s : State) (h : Handle) : State :=
  { s with yard := { s.yard with queue := s.yard.queue.filter (· != h) } }

/-- One visit of a retry's walk (R174). -/
def State.retryOne (s : State) (h : Handle) : State :=
  match s.named h with
  | none => s
  | some x =>
    match s.place h.slot with
    | some t => (t.leaveQueue h).enterDirecting x.lane h.slot
    | none => s

/-- A retry walks the queue from its oldest entry to its newest (R174). -/
def State.retry (s : State) : State := s.yard.queue.foldl State.retryOne s

/-! ### Release (R178) -/

/-- A leg holds a reservation or a bay place (R162, R166). -/
def Leg.holdsPlace (l : Leg) : Bool :=
  !l.done && match l.disposition, l.dest with
    | .yard, some (.block _) => l.kind.any Kind.isDrop
    | .inspect, some (.bay _) => true
    | _, _ => false

/-- The release of a leg's reservation or bay place (R178). `i` is the leg number. -/
def State.releaseLeg (s : State) (h : Handle) (i : Nat) (l : Leg) : State :=
  if l.holdsPlace then
    match l.dest with
    | some (.block b) => s.modBlock b fun bl => { bl with reserved := bl.reserved - l.teu.getD 0 }
    | some (.bay b) => s.modBay b fun y => { y with places := y.places.filter (· != ⟨h, i⟩) }
    | none => s
  else s

/-- The release of a visit's legs, in leg-list order. -/
def State.releaseLegs (s : State) (h : Handle) (legs : List Leg) : State :=
  legs.zipIdx.foldl (fun t p => t.releaseLeg h (p.2 + 1) p.1) s

/-! ### Rejection of a lane-resident visit (R83, R85, R88, R144, R180) -/

/-- A lane's identification operation that waits for a grant is withdrawn (R11). -/
def State.withdraw (s : State) (n : Lane) : State :=
  { s with engine := { s.engine with waiting := s.engine.waiting.set n none } }

/-- A lane's pending scan slot is emptied without counting the scan (R144). -/
def State.emptySlot (s : State) (n : Lane) : State := s.modGrade n fun g => { g with pending := none }

/-- The rejection of a visit (R83): its legs not done are released and dropped, it leaves the yard-wait queue, its
grading is CLOSED with no forced result (R144), and it joins the change set. -/
def State.rejectVisit (s : State) (v : Fin 64) (why : RejectReason) : State :=
  match s.visit v with
  | none => s
  | some x =>
    ((((s.releaseLegs (s.handle v) x.legs).dropLegs v fun l => !l.done).modVisit v fun y =>
        { y with
          state := .rejected
          rejectReason := some why
          outcome := none
          holdStart := none
          timeoutDue := false
          grading := .closed }).leaveQueue (s.handle v)).join (.visit v)

/-- The resident visit of a lane holds a reservation or a bay place, so that its rejection asks for a retry (R180). -/
def State.residentHolds (s : State) (n : Lane) : Bool :=
  match s.residentVisit n with
  | some (_, x) => x.legs.any Leg.holdsPlace
  | none => false

/-! ### Blocks in use (R164) and completion of legs (R177) -/

/-- A leg of an open visit is a pickup leg, not done, directed to a block. -/
def Leg.picksUpAt (b : Fin 48) (l : Leg) : Bool :=
  l.kind.any (fun k => !k.isDrop) && !l.done && l.dest == some (.block b)

/-- The legs of the open visits, slot by slot. -/
def State.openLegs (s : State) : List Leg :=
  (List.finRange 64).flatMap fun v =>
    match s.visit v with
    | some x => x.legs
    | none => []

/-- A block is in use (R164). -/
def State.blockInUse (s : State) (b : Fin 48) : Bool :=
  0 < s.yard.blocks[b].reserved || (List.finRange 32).any (fun g => s.yard.groups[g].contains b)
    || s.openLegs.any (Leg.picksUpAt b)

/-- The conversion of a leg reported done (R177). -/
def State.convertLeg (s : State) (h : Handle) (i : Nat) (l : Leg) : State :=
  match l.dest with
  | some (.block b) =>
    if l.kind.any Kind.isDrop then
      s.modBlock b fun bl =>
        { bl with reserved := bl.reserved - l.teu.getD 0, occupied := min 4000 (bl.occupied + l.teu.getD 0) }
    else s.modBlock b fun bl => { bl with occupied := bl.occupied - l.teu.getD 0 }
  | some (.bay b) => s.modBay b fun y => { y with places := y.places.filter (· != ⟨h, i⟩) }
  | none => s

end Sys2Proof.Machine
end

