-- ==== Sys2Proof/Machine/Grading.lean ====
section
/-!
DEFINITION. The Damage Grader: the arithmetic of a scan (R127 to R130), the stability state (R132, R136), the grading
state of a visit (R133 to R135), the pending slots (R122, R123) and the engine's search (R124).
-/

namespace Sys2Proof.Machine

/-! ### The arithmetic (R127 to R130) -/

/-- An integer clamped to 0–1023. -/
def clamp1023 (n : Int) : Nat := (max 0 (min 1023 n)).toNat

/-- A mixed component of a face (R127): floor((acc + 2048) / 4096), clamped. -/
def MixRow.component (r : MixRow) (f : Face) : Nat :=
  clamp1023 ((r.d * (f.d : Int) + r.b * (f.b : Int) + r.s * (f.s : Int) + 2048) / 4096)

/-- The severity of a face (R128). -/
def Params.severity (p : Params) (f : Face) : Nat :=
  min 1023 ((p.wd * p.dent.component f + p.wh * p.hole.component f + p.wr * p.rust.component f) / 8)

/-- The grade of a face (R129). -/
def Params.grade (p : Params) (f : Face) : Grade :=
  if f.c < p.floor then .unseen
  else if p.severity f < p.t1 then .clean
  else if p.severity f < p.t2 then .minor
  else if p.severity f < p.t3 then .major
  else .critical

/-- The rank of a seen grade (R129). UNSEEN has no rank, and stands below every seen grade here. -/
def Grade.rank : Grade → Nat
  | .unseen => 0
  | .clean => 1
  | .minor => 2
  | .major => 3
  | .critical => 4

/-- The worse of two grades. -/
def Grade.worse (a b : Grade) : Grade := if a.rank < b.rank then b else a

/-- The worst seen grade of five faces; UNSEEN where none is seen. -/
def worstGrade (f : Faces Grade) : Grade := f.toList.foldl Grade.worse .unseen

/-- The class of five face grades (R130). -/
def classOf (f : Faces Grade) : DamageClass :=
  match worstGrade f with
  | .unseen => .incomplete
  | .clean => if f.toList.any (· == .unseen) then .incomplete else .clean
  | .minor => if f.toList.any (· == .unseen) then .incomplete else .minor
  | .major => .major
  | .critical => .critical

/-! ### Stability (R132, R136) -/

/-- A count that stays at 255 (R132). -/
def sat255 (n : Nat) : Nat := if n < 255 then n + 1 else 255

/-- The worst seen grade of a face after a scan (R132, step 3). -/
def worstSeen (old : Option Grade) (new : Grade) : Option Grade :=
  if new = .unseen then old else some (match old with | some g => g.worse new | none => new)

/-- A scan of a size class with these face grades is applied to a position (R132). -/
def Stability.apply (x : Stability) (k : Nat) (size : Nat) (f : Faces Grade) : Stability :=
  let run := if x.previous = some (size, f) then sat255 x.run else 1
  { scans := sat255 x.scans
    run := run
    previous := some (size, f)
    worst := x.worst.zip worstSeen f
    result := match x.result with
      | some r => some r
      | none => if k ≤ run then some ⟨classOf f, f, .settled, size⟩ else none }

/-- The forced result of a position (R136): a position with scans and no result takes its worst seen grades. -/
def Stability.force (x : Stability) : Stability :=
  if 0 < x.scans ∧ x.result.isNone then
    let f := x.worst.map fun g => g.getD .unseen
    { x with result := some ⟨classOf f, f, .forced, (x.previous.map fun p => p.1).getD 0⟩ }
  else x

/-- Forced results are set for both positions of a visit (R136). -/
def Visit.force (x : Visit) : Visit := { x with stability := ⟨x.stability.one.force, x.stability.two.force⟩ }

/-! ### The grading state of a visit (R133 to R135) -/

/-- A scan is counted late at a lane (R123). -/
def GradeLane.countLate (g : GradeLane) : GradeLane := { g with late := satSucc g.late }

/-- A pending slot that holds a scan is emptied and the scan is counted late (R133). -/
def GradeLane.flush (g : GradeLane) : GradeLane :=
  if g.pending.isSome then { g with pending := none, late := satSucc g.late } else g

/-- A visit's grading enters CLOSED other than by a reset (R133). The grading report is the caller's test. -/
def State.closeGrading (s : State) (n : Lane) (v : Fin 64) : State :=
  (s.modVisit v fun x => { x with grading := .closed }).modGrade n GradeLane.flush

/-- The settle notice of a lane for its visit (R135). -/
def State.settleNotice (s : State) (n : Lane) (v : Fin 64) : State :=
  match s.visit v with
  | none => s
  | some x =>
    if x.grading = .isOpen then
      if s.grader.inFlight.any (fun p => p.1 == n) then
        (s.modVisit v fun y => { y with grading := .closing }).modGrade n GradeLane.flush
      else (s.modVisit v Visit.force).closeGrading n v
    else s

/-- The results of a visit's two positions. -/
def Visit.results (x : Visit) : List (Option PosResult) := [x.stability.one.result, x.stability.two.result]

/-- A result is present with basis SETTLED. -/
def isSettled (r : Option PosResult) : Bool := r.any fun p => p.basis == .settled

/-- A scan is of the visit with the handle, for a position whose result is absent (R134, condition 4). -/
def Scan.awaited (c : Scan) (h : Handle) (x : Visit) : Bool :=
  c.handle == h && ((x.stability.get c.pos).result).isNone

/-- The four conditions of an early completion (R134). -/
def State.earlyDone (s : State) (n : Lane) (v : Fin 64) (x : Visit) : Bool :=
  x.grading == .isOpen
    && x.dropLegs.any (fun k => (k == 1 || k == 2) && k ≤ x.results.countP isSettled)
    && [x.stability.one, x.stability.two].all (fun p => p.scans == 0 || isSettled p.result)
    && !(s.grader.lanes[n].pending).any (fun c => c.awaited (s.handle v) x)
    && !s.grader.inFlight.any (fun p => p.2.awaited (s.handle v) x)

/-- The early-completion test of a visit (R134). -/
def State.earlyTest (s : State) (n : Lane) (v : Fin 64) : State :=
  match s.visit v with
  | none => s
  | some x => if s.earlyDone n v x then s.closeGrading n v else s

/-! ### Pending slots and the engine (R121, R122, R124, R125) -/

/-- A face record with its coverage clamped (R121). -/
def Face.clamped (f : Face) : Face := { f with c := min 100 f.c }

/-- A scan handed off for a lane is taken by its pending slot (R122). -/
def State.takeScan (s : State) (n : Lane) (x : Visit) (c : Scan) : State :=
  if x.grading = .isOpen then
    s.modGrade n fun g =>
      { g with
        pending := some c
        superseded := if g.pending.isSome then satSucc g.superseded else g.superseded }
  else s.modGrade n GradeLane.countLate

/-- The lanes in cyclic order from the one after `last`. -/
def lanesAfter (last : Lane) : List Lane := (List.finRange 12).map fun i => last + 1 + i

/-- The free grading engine takes the scan of the next non-empty pending slot (R124). -/
def State.gradingTake (s : State) : State :=
  if s.grader.inFlight.isSome then s
  else match (lanesAfter s.grader.lastServed).find? fun n => (s.grader.lanes[n].pending).isSome with
    | none => s
    | some n =>
      match s.grader.lanes[n].pending with
      | none => s
      | some c =>
        { s with
          grader := { s.grader with
            inFlight := some (n, c)
            lastServed := n
            lanes := s.grader.lanes.set n { s.grader.lanes[n] with pending := none } } }

/-- A scan graded with some parameters is applied to its position of a visit (R125, case 1). -/
def Visit.applyScan (x : Visit) (p : Params) (c : Scan) : Visit :=
  let st := (x.stability.get c.pos).apply p.k c.size (c.faces.map p.grade)
  { x with stability := x.stability.put c.pos st }

/-- A graded scan is applied to its visit, or discarded (R125). `n` is the lane it was taken from. -/
def State.applyScan (s : State) (n : Lane) (c : Scan) : State :=
  match s.named c.handle with
  | none => s
  | some x =>
    if x.state.isResident then
      if x.grading = .closed then s.modGrade n GradeLane.countLate
      else s.modVisit c.handle.slot fun y => y.applyScan s.grader.params c
    else s

/-- The grading of a visit in CLOSING closes as the awaited scan of its lane completes (R135). -/
def closeClosing (n : Lane) (s : State) (v : Fin 64) : State :=
  match s.visit v with
  | none => s
  | some x =>
    if x.lane = n ∧ x.grading = .closing then (s.modVisit v Visit.force).closeGrading n v else s

/-- Every visit of a lane whose grading is CLOSING closes (R135). -/
def State.closeAllClosing (s : State) (n : Lane) : State := (List.finRange 64).foldl (closeClosing n) s

end Sys2Proof.Machine
end

