-- ==== Sys2Proof/Machine/Checks.lean ====
section
/-!
DEFINITION. The Check Unit and the end of CHECKING: the read sets (R95, R96, R108 to R110), the resolution and the
binding (R98 to R102), the seal and damage judging (R115, R116, R137, R138), and the decision (R147 to R150) with the
test that ends CHECKING (R75, R76).
-/

namespace Sys2Proof.Machine

/-! ### Read sets (R95, R96, R108 to R110) -/

/-- A confidence clamped to 100. -/
def clampConf (c : Nat) : Nat := min 100 c

/-- A repeat of a text raises its entry's confidence where the new one is higher (R95, R109). -/
def raiseConf (t : Text) (c : Nat) (rs : List ReadEntry) : List ReadEntry :=
  rs.map fun e => if e.text = t then { e with conf := max e.conf c } else e

/-- A text stands in a read set. -/
def hasText (t : Text) (rs : List ReadEntry) : Bool := rs.any fun e => e.text == t

/-- The lowest confidence in a read set. -/
def lowestConf (rs : List ReadEntry) : Nat := rs.foldl (fun m e => min m e.conf) 100

/-- A read is entered into a plate or container read set of at most `cap` entries (R95). -/
def enterRead (cap : Nat) (t : Text) (c : Nat) (rs : List ReadEntry) : List ReadEntry :=
  if hasText t rs then raiseConf t c rs
  else if rs.length < cap then rs ++ [⟨t, c⟩]
  else if lowestConf rs < c then rs.eraseP (fun e => e.conf == lowestConf rs) ++ [⟨t, c⟩]
  else rs

/-- A PLATE hand-off (R95). -/
def Visit.takePlate (x : Visit) (t : Text) (c : Nat) : Visit :=
  if lengthIn 2 10 t then { x with plates := enterRead 8 t (clampConf c) x.plates } else x

/-- A CONTAINER hand-off (R96). -/
def Visit.takeContainer (x : Visit) (p : Pos) (t : Text) (c : Nat) : Visit :=
  if containerCheck t = .malformed then x
  else { x with containers := x.containers.put p (enterRead 6 t (clampConf c) (x.containers.get p)) }

/-- A seal read is entered into a seal read set, or discarded with the overflow mark (R109, R110). -/
def SealSet.enter (x : SealSet) (t : Text) (c : Nat) : SealSet :=
  if hasText t x.entries then { x with entries := raiseConf t c x.entries }
  else if x.entries.length < 6 then { x with entries := x.entries ++ [⟨t, c⟩] }
  else { x with overflow := true }

/-- A SEAL hand-off (R108). -/
def Visit.takeSeal (x : Visit) (p : Pos) (t : Text) (c : Nat) : Visit :=
  if t.length < 4 then x else { x with seals := x.seals.put p ((x.seals.get p).enter t (clampConf c)) }

/-! ### Resolution (R98 to R100) -/

/-- The entry of the highest confidence, the first entered among equals. -/
def bestRead (rs : List ReadEntry) : Option ReadEntry :=
  rs.foldl (fun best e => match best with
    | none => some e
    | some b => if b.conf < e.conf then some e else some b) none

/-- The qualifying entries (R97). -/
def qualifying (floor : Nat) (rs : List ReadEntry) : List ReadEntry := rs.filter fun e => floor ≤ e.conf

/-- The resolution of a position from its container read set (R99). -/
def resolvePos (floor : Nat) (rs : List ReadEntry) : PosOutcome :=
  match bestRead ((qualifying floor rs).filter fun e => containerCheck e.text == .valid) with
  | some e => .resolved e
  | none =>
    match bestRead (qualifying floor rs) with
    | some e => .checkFail e
    | none => .unread

/-- A position has reads (R99). -/
def PosOutcome.hasReads : PosOutcome → Bool
  | .resolved _ | .checkFail _ => true
  | .unread => false

/-- A leg's booking carries a plate other than the resolved one (R98, R100). -/
def plateDiffers (b : Book) (t : Text) (l : Leg) : Bool :=
  match b.held l.slot l.ref with
  | some (_, r) => r.plate.any (· != t)
  | none => false

/-- The plate resolution of a visit (R98). -/
def Visit.resolvePlate (x : Visit) (b : Book) (floor : Nat) : Visit :=
  match bestRead (qualifying floor x.plates) with
  | some e =>
    { x with
      plate := some e
      reasons := { x.reasons with
        plateMismatch := x.reasons.plateMismatch || x.legs.any (plateDiffers b e.text) } }
  | none => { x with reasons := { x.reasons with plateUnread := true } }

/-! ### Binding (R101, R102) -/

/-- The booking of a drop leg eligible for binding (R101). -/
def eligible (b : Book) (l : Leg) : Option Booking :=
  if l.kind.any Kind.isDrop && l.exception != some .duplicateUse && l.exception != some .alreadyAdmitted then
    (b.held l.slot l.ref).map fun p => p.2
  else none

/-- A position is RESOLVED to a booking's container number. -/
def resolvedTo (o : PosOutcome) (r : Booking) : Bool :=
  match o with
  | .resolved e => r.container == some e.text
  | .checkFail _ | .unread => false

/-- The exact step: the eligible legs in list order, each to the lowest unbound position resolved to its number
(R101). -/
def bindExact (b : Book) (o : PosPair PosOutcome) : List Pos → List Leg → List Leg
  | _, [] => []
  | taken, l :: rest =>
    match eligible b l with
    | none => l :: bindExact b o taken rest
    | some r =>
      match [Pos.one, Pos.two].find? fun p => !taken.contains p && resolvedTo (o.get p) r with
      | some p => { l with bound := some p, container := .matched } :: bindExact b o (p :: taken) rest
      | none => l :: bindExact b o taken rest

/-- The container verdict of a leg bound in the fallback step (R102). -/
def fallbackVerdict (o : PosOutcome) : ContainerVerdict :=
  match o with
  | .resolved _ => .mismatch
  | .checkFail _ | .unread => .checkFail

/-- The fallback step: one unbound eligible leg and one unbound position with reads (R102). -/
def bindFallback (b : Book) (o : PosPair PosOutcome) (legs : List Leg) : List Leg :=
  let open_ (l : Leg) := (eligible b l).isSome && l.bound.isNone
  let free := [Pos.one, Pos.two].filter fun p => (o.get p).hasReads && !legs.any (fun l => l.bound == some p)
  match legs.filter open_, free with
  | [_], [p] => legs.map fun l => if open_ l then { l with bound := some p, container := fallbackVerdict (o.get p) } else l
  | _, _ => legs

/-! ### Seal judging (R115, R116, R118) -/

/-- The outcome of an expected seal (R115). -/
def sealOutcome (floor : Nat) (rs : List ReadEntry) (t : Text) : SealOutcome :=
  match rs.find? fun e => e.text == t with
  | none => .missing
  | some e => if floor ≤ e.conf then .matched e.conf else .matchedWeak e.conf

/-- The strong entries that match no expected seal (R115). -/
def sealExtras (floor : Nat) (rs : List ReadEntry) (expected : List Text) : List ReadEntry :=
  rs.filter fun e => floor ≤ e.conf && !expected.contains e.text

/-- The findings of a leg judged against a seal read set (R115, R118). -/
def sealFindings (c : Check) (x : SealSet) (expected : List Text) : SealFindings where
  floor := c.sealFloor
  weakOn := c.weakOn
  seals := expected.map fun t => (t, sealOutcome c.sealFloor x.entries t)
  extras := sealExtras c.sealFloor x.entries expected
  overflow := x.overflow

/-- The extras count (R115). -/
def SealFindings.extrasCount (f : SealFindings) : Nat := f.extras.length + if f.overflow then 1 else 0

/-- An expected seal was matched by a weak entry. -/
def SealOutcome.isWeak : SealOutcome → Bool
  | .matchedWeak _ => true
  | .matched _ | .missing => false

/-- The seal verdict of a bound leg: the first row of R116 that applies. -/
def SealFindings.verdict (f : SealFindings) : SealVerdict :=
  if f.seals.isEmpty ∧ f.extrasCount = 0 then .noneExpected
  else if f.seals.isEmpty then .unexpected
  else if 0 < f.extrasCount then .mismatch
  else if f.seals.any (fun p => p.2 == .missing) then .missing
  else if f.seals.any (fun p => p.2.isWeak) ∧ f.weakOn = false then .weak
  else .intact

/-- The expected seals of a drop leg, by the leg's own kind: those of its booking for EXPORT_FULL, and none for EMPTY_RETURN
(R106). -/
def expectedSeals (l : Leg) (r : Booking) : List Text := if l.kind = some .exportFull then r.seals else []

/-! ### Damage judging (R137, R138) -/

/-- The damage result a leg takes from its bound position (R137). -/
def legDamage (p : Stability) : LegDamage :=
  match p.result with
  | some r => ⟨r.cls, some r, p.scans⟩
  | none => ⟨.notScanned, none, 0⟩

/-- The damage verdict of a class and a declared condition (R138). -/
def damageVerdict (c : DamageClass) (d : Option Declared) : DamageVerdict :=
  match c with
  | .clean | .minor => .pass
  | .major => if d = some .damaged then .passDeclared else .flag
  | .critical | .incomplete | .notScanned => .flag

/-- A bound leg takes its seal findings and verdict, and its damage result and verdict (R115 to R118, R137, R138). -/
def judgeLeg (b : Book) (c : Check) (x : Visit) (l : Leg) : Leg :=
  match l.bound, b.held l.slot l.ref with
  | some p, some (_, r) =>
    let f := sealFindings c (x.seals.get p) (expectedSeals l r)
    let d := legDamage (x.stability.get p)
    { l with
      findings := some f
      sealVerdict := f.verdict
      damage := some d
      damageVerdict := damageVerdict d.cls r.declared }
  | _, _ => l

/-- The first two steps of the end of CHECKING (R76), and the LINK_LOSS reason (R148, step 1). -/
def Visit.judge (x : Visit) (b : Book) (c : Check) : Visit :=
  let o : PosPair PosOutcome :=
    ⟨resolvePos c.containerFloor x.containers.one, resolvePos c.containerFloor x.containers.two⟩
  let x := x.resolvePlate b c.plateFloor
  let legs := (bindFallback b o (bindExact b o [] x.legs)).map (judgeLeg b c x)
  { x with
    outcomes := some o
    legs := legs
    reasons := { x.reasons with linkLoss := x.reasons.linkLoss || x.linkLoss } }

/-! ### The decision (R147 to R150) -/

/-- A pickup leg. -/
def Leg.isPickup (l : Leg) : Bool := l.kind.any fun k => !k.isDrop

/-- Every finding of a leg is a passing one (R147). -/
def Leg.passes (l : Leg) : Bool :=
  l.exception.isNone
    && (l.window == .onTime || l.window == .transferred)
    && (l.container == .matched || (l.isPickup && l.container == .notApplicable))
    && (l.sealVerdict == .intact || l.sealVerdict == .noneExpected || (l.isPickup && l.sealVerdict == .notApplicable))
    && (l.damageVerdict == .pass || l.damageVerdict == .passDeclared
      || (l.isPickup && l.damageVerdict == .notApplicable))

/-- A visit is clean (R148). -/
def Visit.isClean (x : Visit) : Bool := !x.legs.isEmpty && x.legs.all Leg.passes && x.reasons.isEmpty

/-- The admission updates of some legs of a visit, in list order (R149, R154). -/
def State.admitLegs (s : State) (h : Handle) (legs : List Leg) : State :=
  legs.foldl (fun t l => t.admitBooking l h) s

/-- An automatic admission (R149). -/
def State.autoAdmit (s : State) (n : Lane) (v : Fin 64) : State :=
  match s.visit v with
  | none => s
  | some x =>
    let s := s.admitLegs (s.handle v) x.legs
    (s.modVisit v fun y =>
      { y with
        legs := y.legs.map fun l => { l with disposition := .yard }
        source := some .auto
        outcome := some .admission }).allocate n v

/-- The end of CHECKING, taken whole (R76). -/
def State.endOfChecking (s : State) (n : Lane) (v : Fin 64) : State :=
  match s.visit v with
  | none => s
  | some x =>
    let y := x.judge s.book s.check
    let s := s.modVisit v fun _ => y
    if y.isClean then s.autoAdmit n v else s.enterHeld n v

/-- Identification has completed and formed no drop leg (R75, condition 3). -/
def Visit.noDropLeg (x : Visit) : Bool := x.card == .done && !x.legs.any fun l => l.kind.any Kind.isDrop

/-- The three conditions of R75. -/
def Visit.checkingDone (x : Visit) : Bool :=
  x.settleExpired && (x.card == .done || x.reasons.noCard) && (x.noDropLeg || x.grading == .closed)

/-- The test of R75: CHECKING ends when all three conditions hold. -/
def State.testChecking (s : State) (n : Lane) : State :=
  match s.residentIn n .checking with
  | some (v, x) => if x.checkingDone then s.endOfChecking n v else s
  | none => s

end Sys2Proof.Machine
end

