-- ==== Sys2Proof/Machine/Requests.lean ====
section
/-!
DEFINITION. How a host request starts, is decoded and is answered (R203, R204, R206), the checks of a named lane and of
a handle (R61), and the fields of a response that several requests share.
-/

namespace Sys2Proof.Machine

/-! ### Starting and answering (R203, R204) -/

/-- The oldest frame of the request queue, and the state with the frame removed, when SLK starts it as a request with
this code (R203): no request is in execution and the response queue has a place. -/
def State.startable (s : State) (code : Byte) : Option (ReqFrame × State) :=
  match s.link.requests with
  | [] => none
  | f :: rest =>
    if f.code = code ∧ s.link.exec = none ∧ s.link.responses.length < Config.queuePlaces then
      some (f, s.modLink fun l => { l with requests := rest })
    else none

/-- The response to a request joins the newest end of the response queue (R203). -/
def State.respond (s : State) (f : ReqFrame) (r : Result) (fields : List Byte) : State :=
  s.modLink fun l => { l with responses := l.responses ++ [⟨f.code, f.tag, r, fields⟩] }

/-- An owner's answer to a request is queued. -/
def Answer.queued (a : Answer) (f : ReqFrame) : State := a.state.respond f a.result a.fields

/-- The request with a code that its owner takes at once and whole (R203): the oldest frame is started and decoded, and
its owner's answer is queued in the same event. Fields that do not decode are refused with BAD_PARAM (R204). -/
def takeRequest {α : Type} (code : Byte) (dec : Dec α) (serve : α → State → Answer) (s : State) : State :=
  match s.startable code with
  | none => s
  | some (f, t) =>
    match decodeAll dec f.fields with
    | none => t.respond f .badParam []
    | some a => (serve a t).queued f

/-- A booking request (R203): its execution lasts from here, where SLK becomes a requester of the index engine, to the
completion of the operation. -/
def takeBooking (code : Byte) (dec : Dec BookReq) (s : State) : State :=
  match s.startable code with
  | none => s
  | some (f, t) =>
    match decodeAll dec f.fields with
    | none => t.respond f .badParam []
    | some req => t.modLink fun l => { l with exec := some ⟨f.code, f.tag, false, .booking req⟩ }

/-- The end of the execution of a request (R203): its response is queued, or discarded where the link reset line marked
it (R206). -/
def State.finish (s : State) (e : Execution) (r : Result) (fields : List Byte) : State :=
  s.modLink fun l =>
    { l with
      exec := none
      responses := if e.discard then l.responses else l.responses ++ [⟨e.code, e.tag, r, fields⟩] }

/-- The request codes of R203's table. -/
def requestCodes : List Byte :=
  [0x01, 0x02, 0x03, 0x04, 0x05, 0x08, 0x09, 0x10, 0x11, 0x12, 0x13, 0x14, 0x15, 0x18, 0x19, 0x1A, 0x1B, 0x1C, 0x20,
    0x21, 0x22, 0x23, 0x24, 0x25, 0x26, 0x28, 0x29, 0x2A, 0x30, 0x31, 0x34, 0x35, 0x38, 0x39, 0x3A, 0x3B, 0x3C, 0x40]

/-- A request taken with OK. -/
def accept (s : State) (fields : List Byte) : Answer := ⟨s, .ok, fields⟩

/-- A request with no fields. -/
def dNone : Dec Unit := pure ()

/-! ### Lanes and handles as received -/

/-- The lane that a lane number as received names, 1 to 12. -/
def laneOf (n : Nat) : Option Lane := if h : 1 ≤ n ∧ n ≤ 12 then some ⟨n - 1, by omega⟩ else none

/-- A request that names a lane: a lane outside 1–12 is refused with BAD_PARAM. -/
def onLane (n : Nat) (s : State) (serve : Lane → Answer) : Answer :=
  match laneOf n with
  | none => refuse s .badParam
  | some lane => serve lane

/-- The checks of a handle as received, in the order of R61. -/
def State.checkHandle (s : State) (h : Nat × Nat) : Except Result (Fin 64 × Visit) :=
  if hs : h.1 < 64 then
    if h.2 < 16 then
      match s.visit ⟨h.1, hs⟩ with
      | none => .error .notFound
      | some x => if (s.visits[h.1]).gen.val = h.2 then .ok (⟨h.1, hs⟩, x) else .error .staleHandle
    else .error .badParam
  else .error .badParam

/-- A request that names a visit by its handle. -/
def onVisit (h : Nat × Nat) (s : State) (serve : Fin 64 → Visit → Answer) : Answer :=
  match s.checkHandle h with
  | .error r => refuse s r
  | .ok (v, x) => serve v x

/-! ### Fields that several responses share -/

/-- The handle and the state of a lane's resident visit, each with a presence byte (R209, R212). -/
def eResident (s : State) (n : Lane) : List Byte :=
  eOpt eHandle ((s.residentVisit n).map fun p => s.handle p.1)
    ++ eOpt (fun x : VisitState => e1 x.code) ((s.residentVisit n).map fun p => p.2.state)

/-- A lane's mode, lane state, closing mark and clear-overdue mark (R209, R212). -/
def eLaneMarks (s : State) (n : Lane) : List Byte :=
  e1 (s.lane n).mode.code ++ e1 (s.laneState n).code ++ eFlag (s.lane n).closing ++ eFlag (s.lane n).clearOverdue

/-- The reasons of a visit, in the order of R146. -/
def eReasons (r : Reasons) : List Byte := eList e1 r.codes

/-- The three attention enables (R211). -/
def eEnables (l : Link) : List Byte := eFlag l.attnVisit ++ eFlag l.attnLane ++ eFlag l.attnNoShow

end Sys2Proof.Machine
end

