-- ==== Sys2Proof/Machine/BookRequests.lean ====
section
/-!
DEFINITION. The six booking requests at their start (R12 to R17), the index engine's grants and completions (R9, R10),
and the identification operation at its completion (R11, R91 to R93).
-/

namespace Sys2Proof.Machine

/-! ### The fields of the booking requests (R12 to R17) -/

/-- The fields of BOOK_CREATE (R12): those that depend on the kind follow in the order of R1's table. -/
def dCreate : Dec BookReq := do
  let ref ← dText
  let kind ← dEnum allKinds
  let window ← d4
  let teu ← d1
  let container ← dOpt dText
  let plate ← dOpt dText
  let seals ← dOpt (dList 3 dText)
  let declared ← dOpt (dEnum allDeclared)
  let group ← dOpt d1
  let block ← dOpt d1
  return .create ⟨ref, kind, window, teu, container, plate, seals, declared, group, block⟩

/-- The plate of a BOOK_AMEND: unchanged 00h, value 01h, remove 02h (R13, R219). -/
def dPlateChange : Dec PlateChange := do
  match ← d1 with
  | 0 => return .unchanged
  | 1 => return .value (← dText)
  | 2 => return .remove
  | _ => dFail

/-- The fields of BOOK_AMEND (R13). -/
def dAmend : Dec BookReq := do
  let ref ← dText
  let window ← dOpt d4
  let plate ← dPlateChange
  let seals ← dOpt (dList 3 dText)
  let declared ← dOpt (dEnum allDeclared)
  let group ← dOpt d1
  let block ← dOpt d1
  let teu ← dOpt d1
  let container ← dOpt dText
  return .amend ⟨ref, window, plate, seals, declared, group, block, teu, container⟩

/-- The filters of BOOK_SCAN (R17); `none` is ANY. -/
def allFilters : List (Option BookingState) := allBookingStates.map some ++ [none]

/-- The fields of BOOK_SCAN (R17). -/
def dScan : Dec BookReq := do
  let filter ← dEnum allFilters
  let start ← d2
  return .scan filter start

/-- The fields of a request that carries the reference alone. -/
def dRef (f : Text → BookReq) : Dec BookReq := do
  let ref ← dText
  return f ref

/-- BOOK_CREATE (R12) at its start. -/
def execBookCreate (s : State) : Host.Outcome State Fault Refusal := live s (takeBooking 0x10#8 dCreate s)

/-- BOOK_AMEND (R13) at its start. -/
def execBookAmend (s : State) : Host.Outcome State Fault Refusal := live s (takeBooking 0x11#8 dAmend s)

/-- BOOK_CANCEL (R14) at its start. -/
def execBookCancel (s : State) : Host.Outcome State Fault Refusal := live s (takeBooking 0x12#8 (dRef .cancel) s)

/-- BOOK_RETIRE (R15) at its start. -/
def execBookRetire (s : State) : Host.Outcome State Fault Refusal := live s (takeBooking 0x13#8 (dRef .retire) s)

/-- BOOK_QUERY (R16) at its start. -/
def execBookQuery (s : State) : Host.Outcome State Fault Refusal := live s (takeBooking 0x14#8 (dRef .query) s)

/-- BOOK_SCAN (R17) at its start. -/
def execBookScan (s : State) : Host.Outcome State Fault Refusal := live s (takeBooking 0x15#8 dScan s)

/-! ### The index engine (R9, R10) -/

/-- The booking request in execution. -/
def Link.booking (l : Link) : Option (Execution × BookReq) :=
  match l.exec with
  | some e =>
    match e.work with
    | .booking req => some (e, req)
    | .catchUp _ _ => none
  | none => none

/-- A requester waits for a grant: SLK (0) with a booking request in execution, or a lane with an identification
requested. It is asked while the engine is free. -/
def State.requests (s : State) (r : Fin 13) : Bool :=
  if h : 1 ≤ r.val then (s.engine.waiting[r.val - 1]'(by omega)).isSome else s.link.booking.isSome

/-- The requesters in the engine's cyclic order, from the one after `last` (R9). -/
def requestersAfter (last : Fin 13) : List (Fin 13) := (List.finRange 13).map fun i => last + 1 + i

/-- The requester that the engine grants next. -/
def State.nextGrant (s : State) : Option (Fin 13) := (requestersAfter s.engine.lastGranted).find? s.requests

/-- The free engine becomes busy with a requester's operation (R9). -/
def State.grantTo (s : State) (r : Fin 13) : State :=
  if h : 1 ≤ r.val then
    let n : Lane := ⟨r.val - 1, by omega⟩
    match s.engine.waiting[n] with
    | some op =>
      { s with engine := ⟨r, some (.lane n op), s.engine.waiting.set n none⟩ }
    | none => s
  else { s with engine := { s.engine with lastGranted := r, inFlight := some .host } }

/-- The engine grants the first waiting requester, when it is free and one waits (R9). -/
def State.grant (s : State) : State :=
  if s.engine.inFlight.isSome then s
  else match s.nextGrant with
    | some r => s.grantTo r
    | none => s

/-- INDEX_ENGINE_GRANT (R9). -/
def execIndexEngineGrant (s : State) : Host.Outcome State Fault Refusal := live s s.grant

/-- The operation in flight ends and the engine is free (R10). -/
def State.engineFree (s : State) : State := { s with engine := { s.engine with inFlight := none } }

/-- A booking request's operation completes (R10): its changes are applied, its response is queued or discarded, and the
engine makes its next grant. -/
def State.completeHost (s : State) (e : Execution) (req : BookReq) : State :=
  let a := completeBooking s.engineFree req
  (a.state.finish e a.result a.fields).grant

/-- INDEX_OPERATION_COMPLETE (R10). -/
def execIndexOperationComplete (s : State) : Host.Outcome State Fault Refusal :=
  live s (match s.engine.inFlight, s.link.booking with
    | some .host, some (e, req) => s.completeHost e req
    | _, _ => s)

/-! ### Identification at its completion (R11, R91 to R93) -/

/-- A leg whose reference was not found (R63, R91). -/
def Leg.notFound (ref : Text) : Leg where
  ref := ref
  slot := none
  kind := none
  teu := none
  window := .noWindow
  bound := none
  container := .notApplicable
  sealVerdict := .notApplicable
  findings := none
  damage := none
  damageVerdict := .notApplicable
  exception := some .notFound
  disposition := .pending
  dest := none
  done := false

/-- A leg formed from a booking found (R63, R91). -/
def Leg.formed (slot : Nat) (b : Booking) (w : WindowOutcome) (e : Option LegException) : Leg where
  ref := b.ref
  slot := some slot
  kind := some b.kind
  teu := some b.teu
  window := w
  bound := none
  container := if b.kind.isDrop then .notRead else .notApplicable
  sealVerdict := if b.kind.isDrop then .unread else .notApplicable
  findings := none
  damage := none
  damageVerdict := if b.kind.isDrop then .flag else .notApplicable
  exception := e
  disposition := .pending
  dest := none
  done := false

/-- The window outcome of a claim, and the window that takes a LATE booking (R33, R35). -/
def claimOutcome (r : Ring) (a : Nat) (b : Booking) : WindowOutcome × Option Window :=
  match b.window with
  | none => (.noWindow, none)
  | some w =>
    match r.arrivalTest a w with
    | .early => (.early, none)
    | .onTime => (.onTime, none)
    | .late =>
      match r.transferTo a b.kind with
      | some w' => (.transferred, some w')
      | none => (.late, none)

/-- A claim (R92), with the late transfer (R36) where a window takes the booking. -/
def State.claim (s : State) (h : Handle) (slot : Nat) (b : Booking) (taker : Option Window) : State :=
  match taker with
  | none => { s with book := s.book.put slot { b with state := .inLane, visit := some h } }
  | some w =>
    { s with
      book := s.book.put slot { b with state := .inLane, visit := some h, window := some w.start }
      ring := s.ring.moveBooked b.window (some w.start) b.kind }

/-- One reference of a card is looked up, and its leg is formed (R91). -/
def State.formLeg (s : State) (h : Handle) (a : Nat) (ref : Text) : State × Leg :=
  match findBooking s ref with
  | .error _ => (s, .notFound ref)
  | .ok (slot, b) =>
    match b.state with
    | .booked =>
      let o := claimOutcome s.ring a b
      (s.claim h slot b o.2, .formed slot b o.1 none)
    | .inLane => (s, .formed slot b .noWindow (some .duplicateUse))
    | .admitted => (s, .formed slot b .noWindow (some .alreadyAdmitted))
    | .noShow => (s, .formed slot b .noWindow (some .noShow))

/-- The references of a card in list order: each lookup sees the claims of those before it (R91). -/
def State.formLegs (s : State) (h : Handle) (a : Nat) : List Text → State × List Leg
  | [] => (s, [])
  | ref :: rest =>
    let (t, l) := s.formLeg h a ref
    let (u, ls) := t.formLegs h a rest
    (u, l :: ls)

/-- The TEU of the legs of which a test holds (R93). -/
def teuSum (p : Kind → Bool) (legs : List Leg) : Nat :=
  ((legs.filter fun l => l.kind.any p).map fun l => l.teu.getD 0).sum

/-- The TEU limit is exceeded (R93, step 4). -/
def overTeu (legs : List Leg) : Bool := 2 < teuSum Kind.isDrop legs || 2 < teuSum (fun k => !k.isDrop) legs

/-- The number of drop legs (R133). -/
def dropCount (legs : List Leg) : Nat := legs.countP fun l => l.kind.any Kind.isDrop

/-- The visit's side of an identification that completes with effect (R93, steps 1 to 4), with the drop-leg count of the
leg notice (R133). -/
def Visit.identified (x : Visit) (legs : List Leg) : Visit :=
  { x with
    legs := legs
    card := .done
    reasons := { x.reasons with
      cardUnreadable := x.reasons.cardUnreadable || x.unreadable
      teuLimit := x.reasons.teuLimit || overTeu legs }
    dropLegs := some (dropCount legs) }

/-- The Lane Unit is told that identification is complete (R75, R93, R157): a running card limit stops, a due hold
timeout is taken, and the test that ends CHECKING is made. -/
def State.identificationTold (s : State) (n : Lane) (v : Fin 64) : State :=
  match s.visit v with
  | none => s
  | some x =>
    if x.state = .held ∧ x.timeoutDue then s.turnAway n v .auto .holdTimeout
    else if x.state = .checking then
      (if (s.lane n).dwell.limit = .card then s.stopDwell n else s).testChecking n
    else s

/-- An identification completes (R91): with effect where its handle names a lane-resident visit (R11). -/
def State.identify (s : State) (op : Ident) : State :=
  match s.named op.handle with
  | none => s
  | some x =>
    if x.state.isResident then
      let (t, legs) := s.formLegs op.handle x.arrival op.refs
      ((t.modVisit op.handle.slot fun y => y.identified legs).earlyTest x.lane op.handle.slot).identificationTold
        x.lane op.handle.slot
    else s

/-- IDENTIFICATION_COMPLETE (R91). -/
def execIdentificationComplete (s : State) : Host.Outcome State Fault Refusal :=
  live s (match s.engine.inFlight with
    | some (.lane _ op) => ((s.engineFree.identify op).grant).startJobs
    | some .host | none => s)

end Sys2Proof.Machine
end

