-- ==== Sys2Proof/Machine/CheckRequests.lean ====
section
/-!
DEFINITION. The settings of the Check Unit (R97, R114), the requests of the Damage Grader (R140, R141), and the grading
engine's steps (R124, R125).
-/

namespace Sys2Proof.Machine

/-! ### CHECK_SET and SEAL_SET (R97, R114) -/

/-- Two optional one-byte fields. -/
def dFloors : Dec (Option Nat × Option Nat) := do
  let a ← dOpt d1
  let b ← dOpt d1
  return (a, b)

/-- CHECK_SET at its owner (R97). -/
def serveCheckSet (r : Option Nat × Option Nat) (s : State) : Answer :=
  if r.1.any (100 < ·) || r.2.any (100 < ·) then refuse s .badParam
  else
    let c := { s.check with
      plateFloor := r.1.getD s.check.plateFloor, containerFloor := r.2.getD s.check.containerFloor }
    accept { s with check := c } (e1 c.plateFloor ++ e1 c.containerFloor)

/-- CHECK_SET (R97). -/
def execCheckSet (s : State) : Host.Outcome State Fault Refusal := live s (takeRequest 0x30#8 dFloors serveCheckSet s)

/-- The fields of SEAL_SET: a floor, and a weak acceptance setting (OFF, ON). -/
def dSealSet : Dec (Option Nat × Option Bool) := do
  let a ← dOpt d1
  let b ← dOpt (dEnum [false, true])
  return (a, b)

/-- SEAL_SET at its owner (R114). -/
def serveSealSet (r : Option Nat × Option Bool) (s : State) : Answer :=
  if r.1.any (100 < ·) then refuse s .badParam
  else
    let c := { s.check with sealFloor := r.1.getD s.check.sealFloor, weakOn := r.2.getD s.check.weakOn }
    accept { s with check := c } (e1 c.sealFloor ++ eFlag c.weakOn)

/-- SEAL_SET (R114). -/
def execSealSet (s : State) : Host.Outcome State Fault Refusal := live s (takeRequest 0x31#8 dSealSet serveSealSet s)

/-! ### MIX_SET (R140) -/

/-- A row of new matrix entries. -/
structure RowReq where
  d : Option Int
  b : Option Int
  s : Option Int
  deriving DecidableEq, Repr

/-- The fields of MIX_SET: a value or "unchanged" for each parameter of R139. -/
structure MixReq where
  dent : RowReq
  hole : RowReq
  rust : RowReq
  wd : Option Nat
  wh : Option Nat
  wr : Option Nat
  t1 : Option Nat
  t2 : Option Nat
  t3 : Option Nat
  floor : Option Nat
  k : Option Nat
  deriving DecidableEq, Repr

/-- A row of MIX_SET. -/
def dRow : Dec RowReq := do
  let d ← dOpt d2signed
  let b ← dOpt d2signed
  let s ← dOpt d2signed
  return ⟨d, b, s⟩

/-- The fields of MIX_SET as they stand in its frame. -/
def dMix : Dec MixReq := do
  let dent ← dRow
  let hole ← dRow
  let rust ← dRow
  let wd ← dOpt d1
  let wh ← dOpt d1
  let wr ← dOpt d1
  let t1 ← dOpt d2
  let t2 ← dOpt d2
  let t3 ← dOpt d2
  let floor ← dOpt d1
  let k ← dOpt d1
  return ⟨dent, hole, rust, wd, wh, wr, t1, t2, t3, floor, k⟩

/-- The request gives no new value. -/
def MixReq.isEmpty (r : MixReq) : Bool :=
  r == ⟨⟨none, none, none⟩, ⟨none, none, none⟩, ⟨none, none, none⟩, none, none, none, none, none, none, none, none⟩

/-- A row takes the given entries. -/
def MixRow.apply (m : MixRow) (r : RowReq) : MixRow := ⟨r.d.getD m.d, r.b.getD m.b, r.s.getD m.s⟩

/-- The parameters take the given values (R140). -/
def Params.apply (p : Params) (r : MixReq) : Params :=
  ⟨p.dent.apply r.dent, p.hole.apply r.hole, p.rust.apply r.rust, r.wd.getD p.wd, r.wh.getD p.wh, r.wr.getD p.wr,
    r.t1.getD p.t1, r.t2.getD p.t2, r.t3.getD p.t3, r.floor.getD p.floor, r.k.getD p.k⟩

/-- An entry of the mix matrix lies in its range (R139). -/
def entryOk (q : Int) : Bool := -8192 ≤ q && q ≤ 8191

/-- The given entries of a row lie in their range. -/
def RowReq.ok (r : RowReq) : Bool := r.d.all entryOk && r.b.all entryOk && r.s.all entryOk

/-- Step 1 of R140. -/
def MixReq.ok (r : MixReq) : Bool :=
  r.dent.ok && r.hole.ok && r.rust.ok && r.wd.all (· ≤ 15) && r.wh.all (· ≤ 15) && r.wr.all (· ≤ 15)
    && r.floor.all (· ≤ 100) && r.k.all (fun k => 1 ≤ k && k ≤ 15)

/-- Step 2 of R140: the thresholds rise. -/
def Params.thresholdsOk (p : Params) : Bool := 1 ≤ p.t1 && p.t1 < p.t2 && p.t2 < p.t3 && p.t3 ≤ 1023

/-- Step 3 of R140: some lane has a resident visit whose grading is OPEN or CLOSING. -/
def State.gradingOpen (s : State) : Bool :=
  (List.finRange 12).any fun n => (s.residentVisit n).any fun p => p.2.grading != .closed

/-- MIX_SET at its owner (R140). -/
def serveMixSet (r : MixReq) (s : State) : Answer :=
  let p := s.grader.params.apply r
  if !r.ok || !p.thresholdsOk then refuse s .badParam
  else if !r.isEmpty && s.gradingOpen then refuse s .wrongState
  else accept { s with grader := { s.grader with params := p } } (eParams p)

/-- MIX_SET (R140). -/
def execMixSet (s : State) : Host.Outcome State Fault Refusal := live s (takeRequest 0x34#8 dMix serveMixSet s)

/-! ### GRADER_STATUS (R141) -/

/-- A position's number. -/
def ePos (p : Pos) : List Byte := e1 (match p with | .one => 1 | .two => 2)

/-- A lane's pending slot and its two counts (R141). The slot is its handle and its position with a presence byte each, and
no byte for empty or holding: DESIGN CHOICE, notes/assumptions/10. -/
def eGradeLane (g : GradeLane) : List Byte :=
  eOpt (fun c : Scan => eHandle c.handle) g.pending ++ eOpt (fun c : Scan => ePos c.pos) g.pending
    ++ e2 g.superseded ++ e2 g.late

/-- The fields of GRADER_STATUS, in the order of R141. -/
def eGrader (g : Grader) : List Byte :=
  eParams g.params ++ e1 (if g.inFlight.isSome then 1 else 0) ++ eOpt (fun p : Lane × Scan => eLane p.1) g.inFlight
    ++ eOpt (fun p : Lane × Scan => eHandle p.2.handle) g.inFlight
    ++ eOpt (fun p : Lane × Scan => ePos p.2.pos) g.inFlight ++ eLane g.lastServed
    ++ (List.finRange 12).flatMap fun n => eGradeLane g.lanes[n]

/-- The counts of every lane are set to 0 (R141). -/
def State.clearCounts (s : State) : State :=
  forLanes (fun n t => t.modGrade n fun g => { g with superseded := 0, late := 0 }) s

/-- GRADER_STATUS (R141): the clear choice is YES (00h) or NO (01h). -/
def execGraderStatus (s : State) : Host.Outcome State Fault Refusal :=
  live s (takeRequest 0x35#8 (dEnum [true, false])
    (fun clear t => accept (if clear then t.clearCounts else t) (eGrader t.grader)) s)

/-! ### The grading engine (R124, R125, R134, R135) -/

/-- GRADING_ENGINE_TAKE (R124). -/
def execGradingEngineTake (s : State) : Host.Outcome State Fault Refusal := live s s.gradingTake

/-- The early-completion test after a completion applied to the visit that a handle names: a lane-resident one (R125,
R134), with its own lane's pending slot. Where its grading closes, that lane makes its test on the report (R75, R133). A
completion discarded by case 2 of R125 finds the grading CLOSED, and the test with it. -/
def State.earlyTestOf (s : State) (h : Handle) : State :=
  match s.named h with
  | some x =>
    if x.state.isResident && s.earlyDone x.lane h.slot x then (s.closeGrading x.lane h.slot).testChecking x.lane else s
  | none => s

/-- The scan in flight from lane `n` completes (R125): it is applied or discarded, the gradings that waited for it close
(R135), the early-completion test is made for the visit it names (R134), lane `n` makes its test on a report (R75, R133),
and the engine takes its next scan. -/
def State.gradingCompletes (s : State) (n : Lane) (c : Scan) : State :=
  let t : State := { s with grader := { s.grader with inFlight := none } }
  (((((t.applyScan n c).closeAllClosing n).earlyTestOf c.handle).testChecking n).gradingTake).startJobs

/-- GRADING_COMPLETION (R125). -/
def execGradingCompletion (s : State) : Host.Outcome State Fault Refusal :=
  live s (match s.grader.inFlight with
    | some (n, c) => s.gradingCompletes n c
    | none => s)

end Sys2Proof.Machine
end

