-- ==== Sys2Proof/Machine/LaneEvents.lean ====
section
/-!
DEFINITION. What reaches a Lane Unit by itself: loop events (R71 to R74, R79, R84), lane link frames (R51 to R56, R90),
and the expiries of the dwell timer (R74, R75, R80, R157, R175).
-/

namespace Sys2Proof.Machine

/-! ### LOOP_EVENT (R44, R71 to R74, R79, R84) -/

/-- The level of one loop. -/
def Loops.get (l : Loops) : Loop → Bool
  | .entry => l.entry
  | .stop => l.stop
  | .exit => l.exit

/-- One loop takes a level. -/
def Loops.put (l : Loops) (p : Loop) (b : Bool) : Loops :=
  match p with
  | .entry => { l with entry := b }
  | .stop => { l with stop := b }
  | .exit => { l with exit := b }

/-- A loop line of a lane takes a level. -/
def State.setLoop (s : State) (n : Lane) (p : Loop) (b : Bool) : State :=
  { s with loops := s.loops.set n (s.loops[n].put p b) }

/-- The exit loop of a lane that lets a truck out (R79, R84): occupied sets the exit-seen mark, and clear with the mark
set is the departure. -/
def State.takeExit (s : State) (n : Lane) (level : Bool) (departure : State) : State :=
  if level then s.modLane n fun l => { l with exitSeen := true }
  else if (s.lane n).exitSeen then departure
  else s

/-- A loop event while a visit is resident (R73, R74, R79). -/
def State.loopResident (s : State) (n : Lane) (v : Fin 64) (x : Visit) (p : Loop) (level : Bool) : State :=
  match p with
  | .entry => if level then s else s.modLane n fun l => { l with entryCleared := true }
  | .stop =>
    if level ∧ x.state = .entering then
      (s.modVisit v fun y => { y with state := .checking }).loadDwell n .oneShot .settle
    else s
  | .exit => if x.state = .releasing then s.takeExit n level (s.departVisit n v) else s

/-- A loop event while no visit is resident (R71 to R73, R84). -/
def State.loopEmpty (s : State) (n : Lane) (p : Loop) (level : Bool) : State :=
  match p with
  | .entry => if level then s.takeEntry n else s.leaveWait n
  | .stop => s
  | .exit => if (s.lane n).releasing then s.takeExit n level (s.afterDeparture n) else s

/-- The lane sequencer takes a loop event (R44). -/
def State.takeLoop (s : State) (n : Lane) (p : Loop) (level : Bool) : State :=
  match s.residentVisit n with
  | some (v, x) => s.loopResident n v x p level
  | none => s.loopEmpty n p level

/-- LOOP_EVENT (R44): only a change of the level is an event. The level is the outside's even while PRST is held. -/
def execLoopEvent (n : Lane) (p : Loop) (level : Bool) (s : State) : Host.Outcome State Fault Refusal :=
  .next (if s.loops[n].get p = level then s
    else if s.prst then s.setLoop n p level
    else ((s.setLoop n p level).takeLoop n p level).startJobs)

/-! ### Link flags (R55, R56) -/

/-- The four link flags, by name. -/
inductive FlagKind where
  | overrun
  | frameError
  | checkError
  | stray
  deriving DecidableEq, Repr

/-- A flag is set. -/
def LinkFlags.raise (f : LinkFlags) : FlagKind → LinkFlags
  | .overrun => { f with overrun := true }
  | .frameError => { f with frameError := true }
  | .checkError => { f with checkError := true }
  | .stray => { f with stray := true }

/-- An event sets a link flag, and the lane joins the change set (R55). -/
def State.setFlag (s : State) (n : Lane) (k : FlagKind) : State :=
  (s.modLane n fun l => { l with flags := l.flags.raise k }).join (.lane n)

/-- The states of a visit in which its frames are usable (R54). -/
def VisitState.reading : VisitState → Bool
  | .entering | .checking => true
  | .held | .yardWait | .directing | .releasing | .enRoute | .rejected => false

/-- The resident visit of a lane, in ENTERING or CHECKING (R54, R56). -/
def State.readingVisit (s : State) (n : Lane) : Option (Fin 64 × Visit) :=
  (s.residentVisit n).filter fun p => p.2.state.reading

/-- The link loss mark of the resident visit in ENTERING or CHECKING is set (R56). -/
def State.markLoss (s : State) (n : Lane) : State :=
  match s.readingVisit n with
  | some (v, _) => s.modVisit v fun y => { y with linkLoss := true }
  | none => s

/-! ### LANE_FRAME_ARRIVAL and FRAME_CUT_SHORT (R51, R220) -/

/-- The arrival of a frame, judged in the order of R51. -/
def State.frameArrives (s : State) (n : Lane) (chars : List RxChar) : State :=
  match serialFrame chars with
  | .error .delimiting => s.setFlag n .frameError
  | .error .check => (s.setFlag n .checkError).markLoss n
  | .ok f =>
    match laneContents f with
    | none => s.setFlag n .frameError
    | some c =>
      if 2 ≤ (s.lane n).buffer.length then (s.setFlag n .overrun).markLoss n
      else s.modLane n fun l => { l with buffer := l.buffer ++ [c] }

/-- LANE_FRAME_ARRIVAL (R51). The level of PRST at the frame's end decides whether it is taken, and then it is taken
whole: DESIGN CHOICE, notes/assumptions/7. -/
def execLaneFrameArrival (n : Lane) (chars : List RxChar) (s : State) : Host.Outcome State Fault Refusal :=
  live s (s.frameArrives n chars)

/-- FRAME_CUT_SHORT (R220): the open frame is badly delimited, and is discarded by step 1 of R51. -/
def execFrameCutShort (n : Lane) (s : State) : Host.Outcome State Fault Refusal := live s (s.setFlag n .frameError)

/-! ### LANE_FRAME_TAKE (R52 to R54, R90) -/

/-- The lane has an identification operation requested and not yet completed (R52). -/
def State.identOutstanding (s : State) (n : Lane) : Bool :=
  s.engine.waiting[n].isSome
    || match s.engine.inFlight with
      | some (.lane m _) => m == n
      | some .host | none => false

/-- The prepared list of a card (R90): texts of 8 characters alone, no reference twice. -/
def preparedRefs (refs : List Text) : List Text := (refs.filter fun t => t.length == 8).dedup

/-- A usable card is handed to the index engine as an identification request (R53, R90). -/
def State.requestIdent (s : State) (n : Lane) (v : Fin 64) (refs : List Text) : State :=
  let t := s.modVisit v fun y =>
    { y with card := .pending, unreadable := refs.any fun r => r.length != 8 }
  { t with engine := { t.engine with waiting := t.engine.waiting.set n (some ⟨s.handle v, preparedRefs refs⟩) } }

/-- A frame taken from the buffer is handed to its owner (R53), or is stray (R54). -/
def State.handOff (s : State) (n : Lane) (f : LaneFrame) : State :=
  match s.readingVisit n with
  | none => s.setFlag n .stray
  | some (v, x) =>
    match f with
    | .plate t c => s.modVisit v fun y => y.takePlate t c
    | .container p t c => s.modVisit v fun y => y.takeContainer p t c
    | .sealRead p t c => s.modVisit v fun y => y.takeSeal p t c
    | .scan p size faces => s.takeScan n x ⟨s.handle v, p, size, faces.map Face.clamped⟩
    | .card refs => if x.card = .none then s.requestIdent n v refs else s.setFlag n .stray

/-- The frame is a card. -/
def LaneFrame.isCard : LaneFrame → Bool
  | .card _ => true
  | .plate _ _ | .container _ _ _ | .sealRead _ _ _ | .scan _ _ _ => false

/-- The Lane Unit takes the oldest frame, but for a card while an identification is outstanding (R52). One in flight from
before an abort, a LANE_RESET or a GATE_RESTART still holds a card back, although R59 has a frame after a reset taken at
once: DESIGN CHOICE, notes/assumptions/17. -/
def State.takeFrame (s : State) (n : Lane) : State :=
  match (s.lane n).buffer with
  | [] => s
  | f :: rest =>
    if f.isCard && s.identOutstanding n then s
    else (s.modLane n fun l => { l with buffer := rest }).handOff n f

/-- LANE_FRAME_TAKE (R52). -/
def execLaneFrameTake (n : Lane) (s : State) : Host.Outcome State Fault Refusal := live s (s.takeFrame n)

/-! ### Expiries of the dwell timer (R74, R75, R77, R80, R157, R175) -/

/-- The visit in a state whose dwell timer's expiry, loaded from a limit, is due at the lane. -/
def State.expiring (s : State) (n : Lane) (st : VisitState) (k : LimitKind) : Option (Fin 64 × Visit) :=
  if (s.lane n).expiryDue k then s.residentIn n st else none

/-- The approach limit expires (R74): the visit is held, and the Damage Grader is given the settle notice. -/
def State.approachExpires (s : State) (n : Lane) (v : Fin 64) : State :=
  (((s.takeExpiry n).modVisit v fun y =>
      { y with reasons := { y.reasons with approachTimeout := true } }).enterHeld n v).settleNotice n v

/-- APPROACH_LIMIT_EXPIRY (R74). -/
def execApproachLimitExpiry (n : Lane) (s : State) : Host.Outcome State Fault Refusal :=
  live s (match s.expiring n .entering .approach with
    | some (v, _) => (s.approachExpires n v).startJobs
    | none => s)

/-- The settle limit expires (R75): the settle notice is given, the card limit is loaded where the card is not done, and
the test that ends CHECKING is made. -/
def State.settleExpires (s : State) (n : Lane) (v : Fin 64) (x : Visit) : State :=
  let t := ((s.takeExpiry n).modVisit v fun y => { y with settleExpired := true }).settleNotice n v
  (if x.card = .done then t else t.loadDwell n .oneShot .card).testChecking n

/-- SETTLE_EXPIRY (R75). -/
def execSettleExpiry (n : Lane) (s : State) : Host.Outcome State Fault Refusal :=
  live s (match s.expiring n .checking .settle with
    | some (v, x) => (s.settleExpires n v x).startJobs
    | none => s)

/-- The card limit expires (R75). -/
def State.cardExpires (s : State) (n : Lane) (v : Fin 64) : State :=
  ((s.takeExpiry n).modVisit v fun y => { y with reasons := { y.reasons with noCard := true } }).testChecking n

/-- CARD_LIMIT_EXPIRY (R75). -/
def execCardLimitExpiry (n : Lane) (s : State) : Host.Outcome State Fault Refusal :=
  live s (match s.expiring n .checking .card with
    | some (v, _) => (s.cardExpires n v).startJobs
    | none => s)

/-- The hold limit expires (R157): the timeout is taken, or is due while the card is pending. -/
def State.holdExpires (s : State) (n : Lane) (v : Fin 64) (x : Visit) : State :=
  let t := s.takeExpiry n
  if x.card = .pending then t.modVisit v fun y => { y with timeoutDue := true }
  else t.turnAway n v .auto .holdTimeout

/-- HOLD_TIMEOUT (R157). -/
def execHoldTimeout (n : Lane) (s : State) : Host.Outcome State Fault Refusal :=
  live s (match s.expiring n .held .hold with
    | some (v, x) => (s.holdExpires n v x).startJobs
    | none => s)

/-- The yard-wait limit expires (R175). -/
def State.yardWaitExpires (s : State) (n : Lane) (v : Fin 64) : State :=
  (((s.takeExpiry n).leaveQueue (s.handle v)).modVisit v fun y =>
    { y with reasons := { y.reasons with noYardSpace := true } }).enterHeld n v

/-- YARD_WAIT_LIMIT_EXPIRY (R175). -/
def execYardWaitLimitExpiry (n : Lane) (s : State) : Host.Outcome State Fault Refusal :=
  live s (match s.expiring n .yardWait .yardWait with
    | some (v, _) => (s.yardWaitExpires n v).startJobs
    | none => s)

/-- The lane lets a truck out: its visit is RELEASING, or the lane is (R80). -/
def State.lettingOut (s : State) (n : Lane) : Bool :=
  (s.residentIn n .releasing).isSome || s.laneState n == .releasing

/-- CLEAR_LIMIT_EXPIRY (R80): the clear-overdue mark is set, and the lane joins the change set. -/
def execClearLimitExpiry (n : Lane) (s : State) : Host.Outcome State Fault Refusal :=
  live s (if (s.lane n).expiryDue .clear && s.lettingOut n then
      ((s.takeExpiry n).modLane n fun l => { l with clearOverdue := true }).join (.lane n)
    else s)

end Sys2Proof.Machine
end

