-- ==== Sys2Proof/Machine/LaneRequests.lean ====
section
/-!
DEFINITION. The requests that a Lane Unit owns: LANE_MODE (R81), LANE_SET (R70), LANE_ABORT (R83), LANE_RESET (R85),
POINT_WRITE and POINT_READ (R47, R48) and LANE_FLAGS_CLEAR (R57); and GATE_RESTART (R88, R218), which resets every lane.
-/

namespace Sys2Proof.Machine

/-! ### LANE_MODE (R81) -/

/-- LANE_MODE to MANUAL is taken: the lane is in MANUAL already, or it is IDLE, BLOCKED or CLOSED, or its resident visit
is HELD. -/
def State.manualTaken (s : State) (n : Lane) : Bool :=
  (s.lane n).mode == .manual
    || match s.laneState n with
      | .idle | .blocked | .closed => true
      | .releasing => false
      | .occupied => (s.residentIn n .held).isSome

/-- The lane takes a mode, and its closing mark is cleared. -/
def State.setMode (s : State) (n : Lane) (m : Mode) : State := s.modLane n fun l => { l with mode := m, closing := false }

/-- LANE_MODE at its owner (R81). The lane state, the points and the sign follow the mode. -/
def serveLaneMode (n : Lane) (m : Mode) (s : State) : Answer :=
  match m with
  | .auto => accept (s.setMode n .auto).startJobs []
  | .manual =>
    if s.manualTaken n then accept ((s.setMode n .manual).leaveWait n).startJobs [] else refuse s .laneBusy
  | .closed =>
    if (s.lane n).resident.isSome || (s.lane n).releasing then
      accept ((s.modLane n fun l => { l with closing := true }).leaveWait n).startJobs []
    else accept (((s.setMode n .closed).stopDwell n).leaveWait n).startJobs []

/-- The fields of LANE_MODE. -/
def dLaneMode : Dec (Nat × Mode) := do
  let n ← d1
  let m ← dEnum allModes
  return (n, m)

/-- LANE_MODE (R81). -/
def execLaneMode (s : State) : Host.Outcome State Fault Refusal :=
  live s (takeRequest 0x20#8 dLaneMode (fun r t => onLane r.1 t fun n => serveLaneMode n r.2 t) s)

/-! ### LANE_SET (R70) -/

/-- A limit as given replaces the limit, and 0 is stored as 1. -/
def setLimit (old : Nat) : Option Nat → Nat
  | none => old
  | some v => max 1 v

/-- The limits of LANE_SET as given, in the order of R70. -/
structure LimitsReq where
  approach : Option Nat
  settle : Option Nat
  card : Option Nat
  hold : Option Nat
  yardWait : Option Nat
  clear : Option Nat
  refresh : Option Nat
  signReply : Option Nat
  deriving DecidableEq, Repr

/-- The given values replace their limits (R70). -/
def Limits.apply (l : Limits) (r : LimitsReq) : Limits :=
  ⟨setLimit l.approach r.approach, setLimit l.settle r.settle, setLimit l.card r.card, setLimit l.hold r.hold,
    setLimit l.yardWait r.yardWait, setLimit l.clear r.clear, setLimit l.refresh r.refresh,
    setLimit l.signReply r.signReply⟩

/-- The fields of LANE_SET. -/
def dLaneSet : Dec (Nat × LimitsReq) := do
  let n ← d1
  let approach ← dOpt d2
  let settle ← dOpt d2
  let card ← dOpt d2
  let hold ← dOpt d2
  let yardWait ← dOpt d2
  let clear ← dOpt d2
  let refresh ← dOpt d2
  let signReply ← dOpt d2
  return (n, ⟨approach, settle, card, hold, yardWait, clear, refresh, signReply⟩)

/-- LANE_SET at its owner (R70). -/
def serveLaneSet (n : Lane) (r : LimitsReq) (s : State) : Answer :=
  let t := s.modLane n fun l => { l with limits := l.limits.apply r }
  accept t (eLimits (t.lane n).limits)

/-- LANE_SET (R70). -/
def execLaneSet (s : State) : Host.Outcome State Fault Refusal :=
  live s (takeRequest 0x21#8 dLaneSet (fun r t => onLane r.1 t fun n => serveLaneSet n r.2 t) s)

/-! ### LANE_ABORT (R83) -/

/-- The abort of a lane's resident visit (R83), with the abort subject and the print due mark of the lane's sign (R187,
R188). -/
def State.abortVisit (s : State) (n : Lane) (v : Fin 64) : State :=
  let t := ((s.rejectVisit v .aborted).withdraw n).emptySlot n
  ((t.modLane n fun l => { l with resident := none, releasing := true }).startReleasing n).modSign n fun g =>
    { g with abortSubject := some (s.handle v), printDue := false }

/-- A retry of the yard-wait queue follows where a place was given back (R180). -/
def State.retryIf (s : State) (gaveBack : Bool) : State := if gaveBack then s.retry else s

/-- LANE_ABORT at its owner (R83, R180). -/
def serveLaneAbort (n : Lane) (s : State) : Answer :=
  match (s.lane n).resident with
  | none => refuse s .wrongState
  | some v => accept ((s.abortVisit n v).retryIf (s.residentHolds n)).startJobs []

/-- LANE_ABORT (R83). -/
def execLaneAbort (s : State) : Host.Outcome State Fault Refusal :=
  live s (takeRequest 0x22#8 d1 (fun r t => onLane r t fun n => serveLaneAbort n t) s)

/-! ### LANE_RESET (R85) and GATE_RESTART (R88, R218) -/

/-- The Lane Unit's own part of a reset (R58, R85, R88): no visit is resident, the timers and marks are cleared, and the
receiver is emptied. -/
def LaneUnit.cleared (l : LaneUnit) : LaneUnit :=
  { l with
    resident := none
    releasing := false
    entryCleared := false
    exitSeen := false
    clearOverdue := false
    dwell := .stopped
    refresh := l.limits.refresh
    refreshDue := 0
    buffer := []
    flags := ⟨false, false, false, false⟩ }

/-- What LANE_RESET does to its lane and GATE_RESTART to every lane: the resident visit is rejected, the identification
is withdrawn (R11), the pending slot is emptied (R144), the Lane Unit is cleared and the sign job is abandoned
(R197). -/
def State.resetLane (s : State) (n : Lane) (why : RejectReason) : State :=
  let t := match (s.lane n).resident with
    | some v => s.rejectVisit v why
    | none => s
  (((t.withdraw n).emptySlot n).modLane n LaneUnit.cleared).modSign n Sign.clearForReset

/-- A lane whose closing mark is set completes closing at its reset (R82, R85). -/
def State.closeIf (s : State) (n : Lane) : State := if (s.lane n).closing then s.completeClosing n else s

/-- LANE_RESET at its owner (R85, R180). -/
def serveLaneReset (n : Lane) (s : State) : Answer :=
  accept (((((s.resetLane n .laneReset).leaveWait n).closeIf n).retryIf (s.residentHolds n)).startJobs) []

/-- LANE_RESET (R85). -/
def execLaneReset (s : State) : Host.Outcome State Fault Refusal :=
  live s (takeRequest 0x23#8 d1 (fun r t => onLane r t fun n => serveLaneReset n t) s)

/-- A lane's part of a GATE_RESTART (R88). -/
def restartLane (n : Lane) (s : State) : State := (s.resetLane n .restart).setMode n .manual

/-- The number of lane-resident visits (R218). -/
def State.residents (s : State) : Nat := (List.finRange 12).countP fun n => (s.lane n).resident.isSome

/-- GATE_RESTART at the blocks (R88, R218): the change set is emptied and takes the rejected visits in the order of their
lanes. -/
def State.restart (s : State) : State :=
  let t := forLanes restartLane (s.modLink fun l => { l with changes := [] })
  ({ t with openWait := [], yard := { t.yard with queue := [] } } : State).startJobs

/-- GATE_RESTART (R218). -/
def execGateRestart (s : State) : Host.Outcome State Fault Refusal :=
  live s (takeRequest 0x05#8 dNone (fun _ t => accept t.restart (e1 t.residents)) s)

/-! ### POINT_WRITE and POINT_READ (R47, R48) -/

/-- A point takes the given values (R44, R47): the direction of a loop input stays SENSE. -/
def Point.write (q : Point) (p : Fin 7) (direction latch : Option Bool) : Point :=
  ⟨if p.val < 3 then q.drive else direction.getD q.drive, latch.getD q.latch⟩

/-- The fields of POINT_WRITE: lane, point, direction (SENSE, DRIVE) and latch value, the last two optional. -/
structure PointReq where
  lane : Nat
  point : Nat
  direction : Option Bool
  latch : Option Nat
  deriving DecidableEq, Repr

/-- The fields of POINT_WRITE as they stand in its frame. -/
def dPointWrite : Dec PointReq := do
  let lane ← d1
  let point ← d1
  let direction ← dOpt (dEnum [false, true])
  let latch ← dOpt d1
  return ⟨lane, point, direction, latch⟩

/-- POINT_WRITE at its owner (R47). -/
def servePointWrite (n : Lane) (r : PointReq) (s : State) : Answer :=
  if h : r.point < 7 then
    if r.latch.all (· ≤ 1) then
      let p : Fin 7 := ⟨r.point, h⟩
      let t := s.modLane n fun l =>
        { l with points := l.points.set p (l.points[p].write p r.direction (r.latch.map (· == 1))) }
      accept t (ePoint t n p)
    else refuse s .badParam
  else refuse s .badParam

/-- POINT_WRITE (R47). -/
def execPointWrite (s : State) : Host.Outcome State Fault Refusal :=
  live s (takeRequest 0x24#8 dPointWrite (fun r t => onLane r.lane t fun n => servePointWrite n r t) s)

/-- The fields of POINT_READ's response (R48): seven points with no count byte before them, DESIGN CHOICE,
notes/assumptions/10. -/
def ePoints (s : State) (n : Lane) : List Byte :=
  e1 (s.lane n).mode.code ++ (List.finRange 7).flatMap (ePoint s n)

/-- POINT_READ (R48). -/
def execPointRead (s : State) : Host.Outcome State Fault Refusal :=
  live s (takeRequest 0x25#8 d1 (fun r t => onLane r t fun n => accept t (ePoints t n)) s)

/-! ### LANE_FLAGS_CLEAR (R57) -/

/-- The flags that a mask names are cleared (R57), in the order of R55. -/
def LinkFlags.clear (f : LinkFlags) (mask : Nat) : LinkFlags :=
  ⟨f.overrun && !mask.testBit 0, f.frameError && !mask.testBit 1, f.checkError && !mask.testBit 2,
    f.stray && !mask.testBit 3⟩

/-- The fields of LANE_FLAGS_CLEAR. -/
def dFlagsClear : Dec (Nat × Nat) := do
  let n ← d1
  let mask ← dMask 4
  return (n, mask)

/-- LANE_FLAGS_CLEAR at its owner (R57). -/
def serveFlagsClear (n : Lane) (mask : Nat) (s : State) : Answer :=
  let t := s.modLane n fun l => { l with flags := l.flags.clear mask }
  accept t (eFlags (t.lane n).flags)

/-- LANE_FLAGS_CLEAR (R57). -/
def execLaneFlagsClear (s : State) : Host.Outcome State Fault Refusal :=
  live s (takeRequest 0x26#8 dFlagsClear (fun r t => onLane r.1 t fun n => serveFlagsClear n r.2 t) s)

end Sys2Proof.Machine
end

