-- ==== Sys2Proof/Machine/Link.lean ====
section
/-!
DEFINITION. The transfers of the server link (R201, R202, R205), the link reset line (R206), and the requests that SLK
owns: an unknown request (R204), STATUS (R212), CHANGE_NEXT (R209) and the attention enables (R211).
-/

namespace Sys2Proof.Machine

/-! ### Transfers (R201, R202, R205) -/

/-- A link error of some kind (R202). -/
def State.linkError (s : State) (k : LinkError) : State :=
  s.modLink fun l => { l with errors := satSucc l.errors, errorKind := k }

/-- Zero bytes on SDO. -/
def zeroBytes (n : Nat) : List Byte := List.replicate n 0x00#8

/-- The bytes a READ shifts out while `clocked` bytes are clocked: the frame, then 00h (R205). -/
def shiftOut (clocked : Nat) (frame : List Byte) : List Byte := frame.take clocked ++ zeroBytes (clocked - frame.length)

/-- The end of a transfer whose bytes on SDO the manual does not state. -/
def State.shiftFree (s : State) (clocked : Nat) : State :=
  { s.modLink (fun l => { l with ignoring := false, sdo := Config.freeBytes s.free clocked }) with
    free := s.free + clocked }

/-- The end of a WRITE transfer (R202). A transfer in progress at an assertion of LRST, and every WRITE while LRST is
asserted, is ignored (R206). The levels at the end of the transfer decide, so that one which began before a release of
LRST or PRST is taken whole: DESIGN CHOICE, notes/assumptions/6. -/
def State.writeTransfer (s : State) (bytes : List Byte) : State :=
  let t := s.modLink fun l => { l with ignoring := false, sdo := zeroBytes bytes.length }
  if s.lrst || s.link.ignoring then t
  else match judgeRequest bytes with
    | .error k => t.linkError k
    | .ok f =>
      if Config.queuePlaces ≤ s.link.requests.length then t.linkError .full
      else t.modLink fun l => { l with requests := l.requests ++ [f] }

/-- The end of a READ transfer (R205, R206). -/
def State.readTransfer (s : State) (clocked : Nat) : State :=
  if s.link.ignoring then s.shiftFree clocked
  else match s.lrst, s.link.responses with
    | false, r :: rest =>
      s.modLink fun l =>
        { l with
          sdo := shiftOut clocked r.bytes
          responses := if r.bytes.length ≤ clocked then rest else r :: rest }
    | _, _ => s.modLink fun l => { l with sdo := zeroBytes clocked }

/-- REQUEST_FRAME_ARRIVAL (R202). -/
def execRequestFrameArrival (bytes : List Byte) (s : State) : Host.Outcome State Fault Refusal :=
  live s (s.writeTransfer bytes)

/-- READ_TRANSFER (R205). -/
def execReadTransfer (clocked : Nat) (s : State) : Host.Outcome State Fault Refusal := live s (s.readTransfer clocked)

/-- TRANSFER_OPERATION_ERROR (R201, R202): ignored to its end and counted, but for one that LRST makes the part
ignore (notes/assumptions/6). -/
def execTransferOperationError (_op : Byte) (clocked : Nat) (s : State) : Host.Outcome State Fault Refusal :=
  live s ((if s.lrst || s.link.ignoring then s else s.linkError .operation).shiftFree clocked)

/-! ### The link reset line (R206) -/

/-- The assertion of LRST at SLK (R206). A transfer in progress that is released before its operation byte is complete
has no command, and leaves `ignoring` set unless `inTransfer` was given false: DESIGN CHOICE, notes/assumptions/6. -/
def Link.lineReset (l : Link) (inTransfer : Bool) : Link :=
  { l with
    requests := []
    responses := []
    errors := 0
    errorKind := .none
    exec := l.exec.map fun e => { e with discard := true }
    ignoring := inTransfer }

/-- LINK_RESET_ASSERT (R206). Only a change of the line is an event, and the line's level is the outside's even while
PRST is held. -/
def execLinkResetAssert (inTransfer : Bool) (s : State) : Host.Outcome State Fault Refusal :=
  .next (if s.prst || s.lrst then { s with lrst := true }
    else { s.modLink (fun l => l.lineReset inTransfer) with lrst := true })

/-- LINK_RESET_RELEASE (R206): RDY rises (it is computed from the line) and transfers are taken again. -/
def execLinkResetRelease (s : State) : Host.Outcome State Fault Refusal := .next { s with lrst := false }

/-! ### Unknown requests (R204) -/

/-- UNKNOWN_REQUEST (R204): a started request whose code is not in the table of R203. -/
def execUnknownRequest (s : State) : Host.Outcome State Fault Refusal :=
  live s (match s.link.requests with
    | [] => s
    | f :: _ =>
      if f.code ∈ requestCodes then s
      else match s.startable f.code with
        | none => s
        | some (f, t) => t.respond f .unknownRequest [])

/-! ### STATUS (R212) -/

/-- The fields of STATUS, in the order of R212's own list, although R1, R25, R60, R65, R80 and R202 name some of them
too: DESIGN CHOICE, notes/assumptions/10. -/
def eStatus (s : State) : List Byte :=
  e2 s.book.live ++ e2 s.book.noShow ++ e1 s.freeCount
    ++ eOpt (fun w : Window => e4 w.start ++ e1 s.ring.windows.length) s.ring.windows.head?
    ++ e4 s.time.minute ++ e2 s.time.phase ++ eFlag s.time.clockSet ++ e4 s.time.d ++ e1 s.time.f
    ++ e1 s.link.changes.length ++ e1 (s.link.changes.countP fun | .visit _ => true | .lane _ => false)
    ++ e1 (s.link.changes.countP fun | .visit _ => false | .lane _ => true)
    ++ eEnables s.link ++ eFlag s.attn ++ e1 s.link.requests.length ++ e1 s.link.responses.length
    ++ e2 s.link.errors ++ e1 s.link.errorKind.code
    ++ (List.finRange 12).flatMap fun n => eLaneMarks s n ++ eResident s n

/-- STATUS (R212). -/
def execStatus (s : State) : Host.Outcome State Fault Refusal :=
  live s (takeRequest 0x01#8 dNone (fun _ t => accept t (eStatus t)) s)

/-! ### CHANGE_NEXT (R209) -/

/-- The summary of a visit, in the order of R209's own table, although R62 and R200 name some of its fields too: DESIGN
CHOICE, notes/assumptions/10. -/
def eVisitSummary (s : State) (v : Fin 64) (x : Visit) : List Byte :=
  eHandle (s.handle v) ++ eLane x.lane ++ e1 x.state.code ++ eReasons x.reasons ++ eFlag x.linkLoss
    ++ eFlag x.signFault ++ eOpt (fun o : ReleaseOutcome => e1 o.code) x.outcome
    ++ eOpt (fun o : DecisionSource => e1 o.code) x.source ++ eOpt (fun o : RejectReason => e1 o.code) x.rejectReason
    ++ e1 x.legs.length ++ eFlag x.timeoutDue

/-- The summary of a lane, in the order of R209's own table, although R55 and R80 name some of its fields too: DESIGN
CHOICE, notes/assumptions/10. -/
def eLaneSummary (s : State) (n : Lane) : List Byte :=
  eLane n ++ eLaneMarks s n ++ eFlags (s.lane n).flags ++ eResident s n

/-- A change set entry's kind and its item's summary as the item stands (R209). -/
def eChange (s : State) : Change → List Byte
  | .visit v => e1 0 ++ ((s.visit v).map (eVisitSummary s v)).getD []
  | .lane n => e1 1 ++ eLaneSummary s n

/-- CHANGE_NEXT at its owner (R209). -/
def serveChangeNext (s : State) : Answer :=
  match s.link.changes with
  | [] => refuse s .notFound
  | c :: rest => accept (s.modLink fun l => { l with changes := rest }) (eChange s c ++ e1 rest.length)

/-- CHANGE_NEXT (R209). -/
def execChangeNext (s : State) : Host.Outcome State Fault Refusal :=
  live s (takeRequest 0x02#8 dNone (fun _ t => serveChangeNext t) s)

/-! ### The attention enables (R211) -/

/-- The response of ATTN_ENABLE_SET and ATTN_ENABLE_CLEAR (R211): the enables, the conditions without them, and the
line's level (01h is asserted). -/
def eAttention (s : State) : List Byte :=
  eEnables s.link ++ eFlag s.link.hasVisit ++ eFlag s.link.hasLane ++ eFlag (0 < s.book.noShow) ++ eFlag s.attn

/-- Each cause that a mask names takes a value; the others are left as they are (R211). -/
def Link.setEnables (l : Link) (mask : Nat) (b : Bool) : Link :=
  { l with
    attnVisit := if mask.testBit 0 then b else l.attnVisit
    attnLane := if mask.testBit 1 then b else l.attnLane
    attnNoShow := if mask.testBit 2 then b else l.attnNoShow }

/-- The enables of some causes are set or cleared, at the owner. -/
def serveEnables (b : Bool) (mask : Nat) (s : State) : Answer :=
  let t := s.modLink fun l => l.setEnables mask b
  accept t (eAttention t)

/-- ATTN_ENABLE_SET (R211). -/
def execAttnEnableSet (s : State) : Host.Outcome State Fault Refusal :=
  live s (takeRequest 0x03#8 (dMask 3) (serveEnables true) s)

/-- ATTN_ENABLE_CLEAR (R211). -/
def execAttnEnableClear (s : State) : Host.Outcome State Fault Refusal :=
  live s (takeRequest 0x04#8 (dMask 3) (serveEnables false) s)

end Sys2Proof.Machine
end

