-- ==== Sys2Proof/Machine/SignEvents.lean ====
section
/-!
DEFINITION. What reaches a Sign Unit by itself (a reply R189, a refresh event R194, the reply timer's expiry R193), and
SIGN_SET (R198, R199).
-/

namespace Sys2Proof.Machine

/-! ### Events (R189, R193, R194) -/

/-- SIGN_REPLY (R189): a reply that is not well formed has no effect. The level of PRST at its end decides whether it is
taken: DESIGN CHOICE, notes/assumptions/7. -/
def execSignReply (n : Lane) (chars : List RxChar) (s : State) : Host.Outcome State Fault Refusal :=
  live s (match signReplyOf chars with
    | some r => (s.takeReply n r).startJobs
    | none => s)

/-- REFRESH_EVENT (R69, R194): the Sign Unit takes an expiry of the refresh timer. -/
def execRefreshEvent (n : Lane) (s : State) : Host.Outcome State Fault Refusal :=
  live s (if 0 < (s.lane n).refreshDue then
      (s.modLane n fun l => { l with refreshDue := l.refreshDue - 1 }).refreshSign n
    else s)

/-- REPLY_TIMER_EXPIRY (R193): the job fails, where the expiry of its awaited line's timer stands. -/
def execReplyTimerExpiry (n : Lane) (s : State) : Host.Outcome State Fault Refusal :=
  live s (if (s.sign n).replyDue then
      match (s.sign n).job with
      | .sending j => (s.failJob n j).startJobs
      | .idle | .hold => s
    else s)

/-! ### SIGN_SET (R198, R199) -/

/-- The fields of SIGN_SET after its lane: class, send mode and desk route, and the fault count clear choice. -/
structure SignReq where
  cls : Option SignClass
  mode : Option SendMode
  desk : Option Text
  clear : Bool
  deriving DecidableEq, Repr

/-- The fields of SIGN_SET; the clear choice is YES (00h) or NO (01h). -/
def dSignSet : Dec (Nat × SignReq) := do
  let n ← d1
  let cls ← dOpt (dEnum allSignClasses)
  let mode ← dOpt (dEnum allSendModes)
  let desk ← dOpt dText
  let clear ← dEnum [true, false]
  return (n, ⟨cls, mode, desk, clear⟩)

/-- The given values replace their settings (R198). -/
def Sign.apply (g : Sign) (r : SignReq) : Sign :=
  { g with cls := r.cls.getD g.cls, mode := r.mode.getD g.mode, desk := (r.desk.map (·.take 20)).getD g.desk }

/-- The class or the effective mode is changed (R199). -/
def Sign.switches (old new : Sign) : Bool := old.cls != new.cls || old.effective != new.effective

/-- A resident visit in DIRECTING has not been reported (R199). -/
def State.unreported (s : State) (n : Lane) : Bool := (s.residentIn n .directing).isSome && !(s.sign n).reportMark

/-- A change of class or effective mode (R199): the job is abandoned, the mirror is UNKNOWN for the new class, a ticket
is due for a DIRECTING visit not reported, and OFF reports its directions. -/
def State.switchSign (s : State) (n : Lane) : State :=
  let t := s.modSign n fun g => { g.abandon with printDue := g.cls == .ticket && s.unreported n }
  if (t.sign n).effective = .off then t.report n else t

/-- The settings of a lane's sign change (R198, R199). -/
def State.setSign (s : State) (n : Lane) (r : SignReq) : State :=
  let t := s.modSign n fun g => g.apply r
  (if (s.sign n).switches (t.sign n) then t.switchSign n else t).startJobs

/-- A mirror entry: UNKNOWN is absent (R190). -/
def eMirror (e : Option Line) : List Byte := eOpt eLine e

/-- The job record while SENDING. -/
def JobState.job : JobState → Option Job
  | .sending j => some j
  | .idle | .hold => none

/-- The response of SIGN_SET (R198). The count of a stopped reply timer is sent as 2 bytes of value 0: DESIGN CHOICE,
notes/assumptions/10. -/
def eSign (g : Sign) : List Byte :=
  e1 g.cls.code ++ e1 g.mode.code ++ e1 g.effective.code ++ eText g.desk ++ eList eMirror g.mirror ++ e1 g.job.code
    ++ eOpt (fun j : Job => e1 j.first) g.job.job
    ++ eOpt (fun j : Job => e1 (j.first + j.lines.length - 1)) g.job.job
    ++ eOpt (fun j : Job => e1 j.awaited) g.job.job ++ eFlag g.printDue ++ e1 g.seq ++ e2 g.reply ++ e2 g.faults

/-- SIGN_SET at its owner (R198): with YES the fault count is set to 0 after it is reported. -/
def serveSignSet (n : Lane) (r : SignReq) (s : State) : Answer :=
  let t := s.setSign n r
  accept (if r.clear then t.modSign n fun g => { g with faults := 0 } else t) (eSign (t.sign n))

/-- SIGN_SET (R198). -/
def execSignSet (s : State) : Host.Outcome State Fault Refusal :=
  live s (takeRequest 0x40#8 dSignSet (fun r t => onLane r.1 t fun n => serveSignSet n r.2 t) s)

end Sys2Proof.Machine
end

