-- ==== Sys2Proof/Machine/Time.lean ====
section
/-!
DEFINITION. Power-on (R217), the Time Base (R213 to R216), the minute event and the catch-up (R29, R31, R216).
-/

namespace Sys2Proof.Machine

/-! ### Power-on (R217) -/

/-- PRST_ASSERT (R217): PRST is held from here to the power-on event. The outputs follow at once (Machine/Flags.lean). -/
def execPrstAssert (s : State) : Host.Outcome State Fault Refusal := .next { s with prst := true }

/-- The state after the power-on event (R217): every block at its power-on value. What stands outside the part stays:
the commands that wait, the levels of the loop lines (taken as starting levels, R44), LRST, and the model's counter of
free bytes. -/
def State.poweredOn (s : State) : State :=
  { State.reset with pending := s.pending, loops := s.loops, lrst := s.lrst, free := s.free }

/-- POWER_ON (R217). -/
def execPowerOn (s : State) : Host.Outcome State Fault Refusal := .next s.poweredOn

/-! ### The tick (R213, R214) -/

/-- The refresh timer takes a tick (R69). -/
def LaneUnit.tickRefresh (l : LaneUnit) : LaneUnit :=
  if l.refresh ≤ 1 then { l with refresh := l.limits.refresh, refreshDue := l.refreshDue + 1 }
  else { l with refresh := l.refresh - 1 }

/-- A Lane Unit takes a tick event (R67, R69). -/
def LaneUnit.tick (l : LaneUnit) : LaneUnit :=
  { l.tickRefresh with dwell := tickDwell (l.mode == .auto) l.limits l.dwell }

/-- A Sign Unit's reply timer takes a tick event (R192). -/
def Sign.tick (g : Sign) : Sign :=
  if g.reply = 0 then g
  else if g.reply = 1 then { g with reply := 0, replyDue := true }
  else { g with reply := g.reply - 1 }

/-- The tick phase and the gate minute take a tick event (R214). -/
def TimeBase.countTick (t : TimeBase) : TimeBase :=
  if t.phase < 599 then { t with phase := t.phase + 1 }
  else if t.minute < Config.maxMinute then { t with phase := 0, minute := t.minute + 1, minuteDue := true }
  else { t with phase := 0 }

/-- The next tick begins (R213). -/
def TimeBase.nextTick (t : TimeBase) : TimeBase :=
  { t with refCount := 0, fine := (t.fine + 1) % 16, d := t.pendD, f := t.pendF }

/-- The tick boundary (R213, R214). -/
def State.tickBoundary (s : State) : State :=
  let s := forLanes (fun n t => (t.modLane n LaneUnit.tick).modSign n Sign.tick) s
  { s with time := s.time.countTick.nextTick }

/-- TICK_EVENT (R213): the rest of the tick in progress passes and its boundary comes (notes/assumptions/1). -/
def execTickEvent (s : State) : Host.Outcome State Fault Refusal := live s s.tickBoundary

/-- One reference period passes (R213): what the block does when no command waits (notes/assumptions/1). -/
def State.idle (s : State) : State :=
  if s.prst then s
  else if s.time.tickLength ≤ s.time.refCount + 1 then s.tickBoundary
  else { s with time := { s.time with refCount := s.time.refCount + 1 } }

/-! ### The minute event and the catch-up (R29, R31, R216) -/

/-- A TIME_SET catch-up is in progress. -/
def State.catchingUp (s : State) : Bool :=
  match s.link.exec with
  | some e =>
    match e.work with
    | .catchUp _ _ => true
    | .booking _ => false
  | none => false

/-- MINUTE_EVENT (R29): the Window Ring takes a minute event that was given. During a catch-up the windows it makes due
retire in the catch-up's series (R216). -/
def execMinuteEvent (s : State) : Host.Outcome State Fault Refusal :=
  live s (if s.time.minuteDue then
      let t := { s with time := { s.time with minuteDue := false } }
      if s.catchingUp then t else t.retireDue
    else s)

/-- The fields of a TIME_SET's response (R216): the minute set, and the number of windows retired. -/
def eTimeSet (minute retired : Nat) : List Byte := e4 minute ++ e4 retired

/-- TIME_SET (R216): its execution ends at once when no retirement is due. -/
def takeTimeSet (s : State) : State :=
  match s.startable 0x08#8 with
  | none => s
  | some (f, t) =>
    match decodeAll d4 f.fields with
    | none => t.respond f .badParam []
    | some m =>
      if m < t.time.minute then t.respond f .timeBackward []
      else
        let u := { t with time := { t.time with minute := m, phase := 0, clockSet := true } }
        if t.time.minute < m ∧ t.ring.due m then
          u.modLink fun l => { l with exec := some ⟨f.code, f.tag, false, .catchUp m 0⟩ }
        else u.respond f .ok (eTimeSet m 0)

/-- TIME_SET (R216). -/
def execTimeSet (s : State) : Host.Outcome State Fault Refusal := live s (takeTimeSet s)

/-- One retirement of a catch-up (R31, R216): the request's execution ends with the last. -/
def State.catchUpStep (s : State) (e : Execution) (minute retired : Nat) : State :=
  if s.ring.due s.time.minute then
    let t := s.retireOne
    if t.ring.due t.time.minute then
      t.modLink fun l => { l with exec := some { e with work := .catchUp minute (retired + 1) } }
    else t.finish e .ok (eTimeSet minute (retired + 1))
  else s.finish e .ok (eTimeSet minute retired)

/-- CATCH_UP_RETIREMENT (R31). -/
def execCatchUpRetirement (s : State) : Host.Outcome State Fault Refusal :=
  live s (match s.link.exec with
    | some e =>
      match e.work with
      | .catchUp minute retired => s.catchUpStep e minute retired
      | .booking _ => s
    | none => s)

/-! ### TICK_SET (R215) -/

/-- The response of TICK_SET (R215): D and F in force, then pending. -/
def eTicks (t : TimeBase) : List Byte := e4 t.d ++ e1 t.f ++ e4 t.pendD ++ e1 t.pendF

/-- TICK_SET at its owner (R215). -/
def serveTickSet (r : Option Nat × Option Nat) (s : State) : Answer :=
  if r.1.all (fun d => 1000000 ≤ d && d ≤ 2000000) && r.2.all (· ≤ 15) then
    let t := { s with time := { s.time with pendD := r.1.getD s.time.pendD, pendF := r.2.getD s.time.pendF } }
    accept t (eTicks t.time)
  else refuse s .badParam

/-- The fields of TICK_SET. -/
def dTickSet : Dec (Option Nat × Option Nat) := do
  let d ← dOpt d4
  let f ← dOpt d1
  return (d, f)

/-- TICK_SET (R215). -/
def execTickSet (s : State) : Host.Outcome State Fault Refusal := live s (takeRequest 0x09#8 dTickSet serveTickSet s)

end Sys2Proof.Machine
end

