-- ==== Sys2Proof/Machine/VisitRequests.lean ====
section
/-!
DEFINITION. The requests on a visit: VISIT_QUERY (R86, R104, R119, R142, R157, R160), VISIT_CLOSE (R87, R179) and
VISIT_DECIDE (R152 to R156).
-/

namespace Sys2Proof.Machine

/-! ### VISIT_QUERY (R86) -/

/-- The fields of the visit record, in the order of R62's table, its legs in their place (R63). -/
def eVisit (x : Visit) : List Byte :=
  eLane x.lane ++ e1 x.state.code ++ e4 x.arrival ++ e1 x.card.code ++ eOpt eEntry x.plate ++ eFlag x.linkLoss
    ++ eReasons x.reasons ++ eList eLeg x.legs ++ eOpt (fun p : Nat × Nat => e4 p.1 ++ e2 p.2) x.holdStart
    ++ eOpt (fun o : ReleaseOutcome => e1 o.code) x.outcome ++ eOpt (fun o : DecisionSource => e1 o.code) x.source
    ++ eOpt (fun o : RejectReason => e1 o.code) x.rejectReason ++ eFlag x.signFault

/-- The marks and the dwell timer of the lane of a lane-resident visit, each present by the visit's state (R86). The
count of a stopped timer is reported present with the value 0: DESIGN CHOICE, notes/assumptions/10. -/
def eLaneOf (s : State) (x : Visit) : List Byte :=
  let l : Option LaneUnit := if x.state.isResident then some (s.lane x.lane) else none
  eOpt (fun u : LaneUnit => eFlag u.entryCleared) l ++ eOpt (fun u : LaneUnit => eFlag u.exitSeen) l
    ++ eOpt (fun u : LaneUnit => e1 u.dwell.form.code) l ++ eOpt (fun u : LaneUnit => e2 u.dwell.count) l

/-- The plate and container read sets and the position outcomes (R104). One presence byte stands for both outcomes, and
one for the text and the confidence of an outcome: DESIGN CHOICE, notes/assumptions/10. -/
def eReadSets (x : Visit) : List Byte :=
  eList eEntry x.plates ++ eList eContainerEntry x.containers.one ++ eList eContainerEntry x.containers.two
    ++ eOpt (fun o : PosPair PosOutcome => ePosOutcome o.one ++ ePosOutcome o.two) x.outcomes

/-- The seal read sets, and each leg's seal findings (R119): leg by leg, one presence byte each and no count byte before
them: DESIGN CHOICE, notes/assumptions/10. -/
def eSeals (x : Visit) : List Byte :=
  eSealSet x.seals.one ++ eSealSet x.seals.two ++ x.legs.flatMap fun l => eOpt eFindings l.findings

/-- The grading state, the drop-leg count and the stability states (R142). -/
def eGrading (x : Visit) : List Byte :=
  e1 x.grading.code ++ eOpt e1 x.dropLegs ++ eStability x.stability.one ++ eStability x.stability.two

/-- The fields of VISIT_QUERY, in the order of the rules that name them (R219): R86, R104, R119, R142 and R157. They may
come to more than R219's largest length, and are sent whole then: DESIGN CHOICE, notes/assumptions/23. Whether a timeout
is due is a plain flag in every visit state: DESIGN CHOICE, notes/assumptions/10. -/
def eVisitQuery (s : State) (x : Visit) : List Byte :=
  eVisit x ++ eLaneOf s x ++ eReadSets x ++ eSeals x ++ eGrading x ++ eFlag x.timeoutDue

/-- VISIT_QUERY (R86). -/
def execVisitQuery (s : State) : Host.Outcome State Fault Refusal :=
  live s (takeRequest 0x28#8 dHandle (fun h t => onVisit h t fun _ x => accept t (eVisitQuery t x)) s)

/-! ### VISIT_CLOSE (R87, R179) -/

/-- A visit's entry leaves the change set (R208). -/
def State.leaveChanges (s : State) (v : Fin 64) : State :=
  s.modLink fun l => { l with changes := l.changes.filter (· != .visit v) }

/-- A slot is freed: its generation advances, and the free count rises (R60). -/
def State.freeSlot (s : State) (v : Fin 64) : State :=
  { s with visits := s.visits.set v ⟨s.visits[v].gen + 1, none⟩, freeCount := s.freeCount + 1 }

/-- A freed slot is handed to the lane at the oldest end of the open-wait list (R72). -/
def State.handOn (s : State) (v : Fin 64) : State :=
  match s.openWait with
  | [] => s
  | n :: _ => s.openVisit n v

/-- The close of a visit (R87, steps 1 to 4). -/
def State.closeVisit (s : State) (v : Fin 64) (x : Visit) : State :=
  let h := s.handle v
  ((((x.legs.foldl (fun t l => t.releaseBooking l h) (s.releaseLegs h x.legs)).leaveChanges v).freeSlot v).handOn v)

/-- VISIT_CLOSE at its owner (R87). -/
def serveVisitClose (v : Fin 64) (x : Visit) (s : State) : Answer :=
  if x.state.isResident then refuse s .laneBusy
  else accept (((s.closeVisit v x).retryIf (x.legs.any Leg.holdsPlace)).startJobs) []

/-- VISIT_CLOSE (R87). -/
def execVisitClose (s : State) : Host.Outcome State Fault Refusal :=
  live s (takeRequest 0x2A#8 dHandle (fun h t => onVisit h t fun v x => serveVisitClose v x t) s)

/-! ### VISIT_DECIDE (R152 to R156) -/

/-- The dispositions of a decision (R152). -/
inductive Choice where
  | yard
  | inspect
  | drop
  deriving DecidableEq, Repr

/-- A decision: TURN_AWAY, or a list of dispositions (R152). -/
inductive Decision where
  | turnAway
  | list (choices : List Choice)
  deriving DecidableEq, Repr

/-- The fields of VISIT_DECIDE: the handle, and the decision as a choice between alternatives. -/
def dDecide : Dec ((Nat × Nat) × Decision) := do
  let h ← dHandle
  let d ← dChoice (pure Decision.turnAway) (do
    let cs ← dList 2 (dEnum [Choice.yard, .inspect, .drop])
    return .list cs)
  return (h, d)

/-- The choice admits its leg. -/
def Choice.admits (c : Choice) : Bool := c != .drop

/-- Step 5 of R152 for a leg. -/
def Leg.wrongChoice (l : Leg) (c : Choice) : Bool :=
  (c.admits && (l.exception == some .notFound || l.exception == some .duplicateUse
    || l.exception == some .alreadyAdmitted)) || (c == .inspect && l.isPickup)

/-- Step 6 of R152 for a leg: its booking fails the test of R18. -/
def Leg.unheld (b : Book) (l : Leg) (c : Choice) : Bool := c.admits && (b.held l.slot l.ref).isNone

/-- Step 7 of R152 for a leg: its booking is neither this visit's nor NO_SHOW. -/
def Leg.notOurs (b : Book) (h : Handle) (l : Leg) (c : Choice) : Bool :=
  c.admits && (b.held l.slot l.ref).any fun p =>
    !(((p.2.state == .inLane || p.2.state == .admitted) && p.2.visit == some h) || p.2.state == .noShow)

/-- The number of the first leg, in list order, for which a test holds. -/
def firstLeg (test : Leg → Choice → Bool) (legs : List Leg) (cs : List Choice) : Option Nat :=
  ((legs.zip cs).findIdx? fun p => test p.1 p.2).map (· + 1)

/-- Steps 5 to 7 of R152: the refusal and the leg it names. -/
def choiceCheck (b : Book) (h : Handle) (legs : List Leg) (cs : List Choice) : Option (Result × Nat) :=
  match firstLeg Leg.wrongChoice legs cs with
  | some i => some (.badParam, i)
  | none =>
    match firstLeg (Leg.unheld b) legs cs with
    | some i => some (.notFound, i)
    | none => (firstLeg (Leg.notOurs b h) legs cs).map fun i => (.wrongState, i)

/-- Steps 2 to 4 of R152. -/
def decideCheck (x : Visit) (d : Decision) : Option Result :=
  if (match d with
    | .turnAway => false
    | .list cs => cs.length != x.legs.length || x.legs.isEmpty) then some .badParam
  else if x.state ≠ .held ∨ x.card = .pending then some .wrongState
  else none

/-- A leg takes its choice (R154, R155): any destination is lost. -/
def Leg.choose (l : Leg) : Choice → Leg
  | .yard => { l with disposition := .yard, dest := none }
  | .inspect => { l with disposition := .inspect, dest := none }
  | .drop => l.drop

/-- The booking of a leg takes the admission update or the revert that its choice asks for (R154, R155). -/
def State.chooseBooking (s : State) (h : Handle) (l : Leg) (c : Choice) : State :=
  if c.admits then s.admitBooking l h else s.revertBooking l h

/-- An admission by the host (R154). -/
def State.admitByHost (s : State) (n : Lane) (v : Fin 64) (x : Visit) (cs : List Choice) : State :=
  let t := (x.legs.zip cs).foldl (fun t p => t.chooseBooking (s.handle v) p.1 p.2) (s.stopDwell n)
  (t.modVisit v fun y =>
    { y with
      legs := List.zipWith Leg.choose y.legs cs
      holdStart := none
      timeoutDue := false
      source := some .server
      outcome := some .admission }).allocate n v

/-- A decision taken (R154, R156). -/
def State.decide (s : State) (n : Lane) (v : Fin 64) (x : Visit) (d : Decision) : State :=
  match d with
  | .turnAway => s.turnAway n v .server .turnAway
  | .list cs => if cs.any Choice.admits then s.admitByHost n v x cs else s.turnAway n v .server .turnAway

/-- The response of VISIT_DECIDE (R152): the visit's state, and each leg's disposition and destination, as a list with its
count byte: DESIGN CHOICE, notes/assumptions/10. -/
def eDecide (s : State) (v : Fin 64) : List Byte :=
  match s.visit v with
  | some x => e1 x.state.code ++ eList (fun l : Leg => e1 l.disposition.code ++ eOpt eDest l.dest) x.legs
  | none => []

/-- VISIT_DECIDE at its owner (R152). A refusal that names a leg carries its number, from 1, in one byte: DESIGN CHOICE,
notes/assumptions/10. -/
def serveDecide (d : Decision) (v : Fin 64) (x : Visit) (s : State) : Answer :=
  match decideCheck x d with
  | some code => refuse s code
  | none =>
    match (match d with
      | .turnAway => none
      | .list cs => choiceCheck s.book (s.handle v) x.legs cs) with
    | some (code, i) => ⟨s, code, e1 i⟩
    | none =>
      let t := (s.decide x.lane v x d).startJobs
      accept t (eDecide t v)

/-- VISIT_DECIDE (R152). -/
def execVisitDecide (s : State) : Host.Outcome State Fault Refusal :=
  live s (takeRequest 0x29#8 dDecide (fun r t => onVisit r.1 t fun v x => serveDecide r.2 v x t) s)

end Sys2Proof.Machine
end

