-- ==== Sys2Proof/Machine/WindowRequests.lean ====
section
/-!
DEFINITION. The requests of the Window Ring: WINDOW_PLAN (R28), WINDOW_SET (R37), WINDOW_SET_ALLOWANCES (R38),
DEFAULT_QUOTA (R39) and WINDOW_QUERY (R40).
-/

namespace Sys2Proof.Machine

/-! ### WINDOW_PLAN (R28) -/

/-- The fields of WINDOW_PLAN. -/
structure PlanReq where
  first : Nat
  length : Nat
  early : Nat
  grace : Nat
  reach : Nat
  deriving DecidableEq, Repr

/-- The fields of WINDOW_PLAN as they stand in its frame. -/
def dPlan : Dec PlanReq := do
  let first ← d4
  let length ← d1
  let early ← d1
  let grace ← d1
  let reach ← d1
  return ⟨first, length, early, grace, reach⟩

/-- The checks of WINDOW_PLAN, in order (R28). -/
def planCheck (s : State) (r : PlanReq) : Option Result :=
  if r.length ∉ [15, 20, 30, 60] ∨ 120 < r.early ∨ 120 < r.grace ∨ 8 < r.reach then some .badParam
  else if s.time.clockSet = false then some .clockNotSet
  else if 0 < s.book.live then some .notEmpty
  else if r.first + r.length + r.grace ≤ s.time.minute ∨ Config.maxMinute < r.first + 95 * r.length then some .badParam
  else none

/-- WINDOW_PLAN at its owner (R28). -/
def servePlan (r : PlanReq) (s : State) : Answer :=
  match planCheck s r with
  | some code => refuse s code
  | none => accept { s with ring := s.ring.plan r.first r.length r.early r.grace r.reach } []

/-- WINDOW_PLAN (R28). -/
def execWindowPlan (s : State) : Host.Outcome State Fault Refusal := live s (takeRequest 0x18#8 dPlan servePlan s)

/-! ### WINDOW_SET (R37) -/

/-- The fields of WINDOW_SET: a start, and a quota or "unchanged" for each kind. -/
def dWindowSet : Dec (Nat × List (Option Nat)) := do
  let start ← d4
  let quotas ← dRepeat (dOpt d2) 4
  return (start, quotas)

/-- WINDOW_SET at its owner (R37). -/
def serveWindowSet (r : Nat × List (Option Nat)) (s : State) : Answer :=
  if r.2.any (·.any (999 < ·)) then refuse s .badParam
  else match s.ring.find r.1 with
    | none => refuse s .noSuchWindow
    | some _ => accept { s with ring := s.ring.modWindow r.1 fun w => w.setQuotas r.2 } []

/-- WINDOW_SET (R37). -/
def execWindowSet (s : State) : Host.Outcome State Fault Refusal :=
  live s (takeRequest 0x19#8 dWindowSet serveWindowSet s)

/-! ### WINDOW_SET_ALLOWANCES (R38) -/

/-- The fields of WINDOW_SET_ALLOWANCES: E, G and R, each a value or "unchanged". -/
structure AllowanceReq where
  early : Option Nat
  grace : Option Nat
  reach : Option Nat
  deriving DecidableEq, Repr

/-- The fields of WINDOW_SET_ALLOWANCES as they stand in its frame. -/
def dAllowances : Dec AllowanceReq := do
  let early ← dOpt d1
  let grace ← dOpt d1
  let reach ← dOpt d1
  return ⟨early, grace, reach⟩

/-- The given values replace E, G and R. -/
def Ring.setAllowances (r : Ring) (a : AllowanceReq) : Ring :=
  { r with early := a.early.getD r.early, grace := a.grace.getD r.grace, reach := a.reach.getD r.reach }

/-- WINDOW_SET_ALLOWANCES at its owner (R38): a lowered G is followed at once by a retirement test. -/
def serveAllowances (a : AllowanceReq) (s : State) : Answer :=
  if a.early.any (120 < ·) || a.grace.any (120 < ·) || a.reach.any (8 < ·) then refuse s .badParam
  else
    let t := { s with ring := s.ring.setAllowances a }
    accept (if t.ring.grace < s.ring.grace then t.retireDue else t) []

/-- WINDOW_SET_ALLOWANCES (R38). -/
def execWindowSetAllowances (s : State) : Host.Outcome State Fault Refusal :=
  live s (takeRequest 0x1A#8 dAllowances serveAllowances s)

/-! ### DEFAULT_QUOTA (R39) -/

/-- The fields of DEFAULT_QUOTA: one quota for each kind. -/
def dQuotas : Dec PerKind := do
  let a ← d2
  let b ← d2
  let c ← d2
  let d ← d2
  return ⟨a, b, c, d⟩

/-- DEFAULT_QUOTA at its owner (R39). -/
def serveDefaultQuota (q : PerKind) (s : State) : Answer :=
  if allKinds.any fun k => 999 < q.get k then refuse s .badParam
  else accept { s with ring := { s.ring with defaults := q } } []

/-- DEFAULT_QUOTA (R39). -/
def execDefaultQuota (s : State) : Host.Outcome State Fault Refusal :=
  live s (takeRequest 0x1B#8 dQuotas serveDefaultQuota s)

/-! ### WINDOW_QUERY (R40) -/

/-- WINDOW_QUERY at its owner (R40). A response that names a sum above the largest gate minute draws free bytes for it
(notes/assumptions/20). -/
def serveWindowQuery (start : Option Nat) (s : State) : Answer :=
  match start with
  | some m =>
    match s.ring.find m with
    | none => refuse s .noSuchWindow
    | some w => accept { s with free := s.free + 8 } (eWindow s.ring s.free w)
  | none => if s.ring.windows.isEmpty then refuse s .noSuchWindow else accept s (ePlan s)

/-- WINDOW_QUERY (R40). -/
def execWindowQuery (s : State) : Host.Outcome State Fault Refusal :=
  live s (takeRequest 0x1C#8 (dOpt d4) serveWindowQuery s)

end Sys2Proof.Machine
end

