-- ==== Sys2Proof/Machine/YardRequests.lean ====
section
/-!
DEFINITION. The requests of the Yard Allocator: BLOCK_SET (R163, R164), BLOCK_QUERY (R181), GROUP_SET (R165), BAY_SET
(R167) and LEG_DONE (R176, R177).
-/

namespace Sys2Proof.Machine

/-! ### BLOCK_SET (R163) -/

/-- The fields of BLOCK_SET after its block number: a value or "unchanged" for each. -/
structure BlockReq where
  state : Option BlockState
  code : Option Text
  accepts : Option Accepts
  capacity : Option Nat
  occupied : Option Nat
  route : Option Text
  deriving DecidableEq, Repr

/-- The fields of BLOCK_SET. -/
def dBlockSet : Dec (Nat × BlockReq) := do
  let b ← d1
  let state ← dOpt (dEnum allBlockStates)
  let code ← dOpt dText
  let accepts ← dOpt (dEnum allAccepts)
  let capacity ← dOpt d2
  let occupied ← dOpt d2
  let route ← dOpt dText
  return (b, ⟨state, code, accepts, capacity, occupied, route⟩)

/-- The request gives a new value for a field other than the state. -/
def BlockReq.givesOther (r : BlockReq) : Bool :=
  r.code.isSome || r.accepts.isSome || r.capacity.isSome || r.occupied.isSome || r.route.isSome

/-- The request gives state OPEN or CLOSED. -/
def BlockReq.defines (r : BlockReq) : Bool := r.state == some .isOpen || r.state == some .closed

/-- Step 1 of R163, but for the block number. -/
def BlockReq.ok (r : BlockReq) : Bool :=
  r.capacity.all (· ≤ 4000) && r.occupied.all (· ≤ 4000) && r.code.all (lengthIn 1 4)
    && !(r.state == some .undefined && r.givesOther)

/-- An UNDEFINED block (R161). The reserved count is kept. -/
def Block.undefine (b : Block) : Block :=
  { b with state := .undefined, code := none, accepts := none, capacity := 0, occupied := 0, route := none }

/-- A block with the given values (R163): one defined by the request takes capacity and occupied 0 and an empty route
text where those are not given. -/
def Block.apply (b : Block) (r : BlockReq) : Block :=
  if r.state = some .undefined ∨ (b.state = .undefined ∧ r.defines = false) then b.undefine
  else
    let old := if b.state = .undefined then b.undefine else b
    { old with
      state := r.state.getD old.state
      code := r.code.or old.code
      accepts := r.accepts.or old.accepts
      capacity := r.capacity.getD old.capacity
      occupied := r.occupied.getD old.occupied
      route := some ((r.route.map (·.take 20)).getD (old.route.getD [])) }

/-- The code of a block is the code of another defined block (R163, step 4). -/
def State.codeClash (s : State) (b : Fin 48) (code : Option Text) : Bool :=
  code.isSome && (List.finRange 48).any fun c =>
    c != b && s.yard.blocks[c].state != .undefined && s.yard.blocks[c].code == code

/-- The checks of BLOCK_SET, in order (R163). -/
def blockCheck (s : State) (b : Fin 48) (r : BlockReq) : Option Result :=
  let bl := s.yard.blocks[b]
  if !r.ok then some .badParam
  else if bl.state = .undefined ∧ r.defines = false ∧ r.givesOther = true then some .wrongState
  else if bl.state = .undefined ∧ r.defines = true ∧ (r.code.isNone ∨ r.accepts.isNone) then some .badParam
  else if s.codeClash b (bl.apply r).code then some .badParam
  else if bl.state ≠ .undefined ∧ r.state = some .undefined ∧ s.blockInUse b = true then some .inUse
  else none

/-- The response of BLOCK_SET (R163): the block's fields, its reserved count and its free TEU. -/
def eBlock (b : Block) : List Byte :=
  e1 b.state.code ++ eOpt eText b.code ++ eOpt (fun a : Accepts => e1 a.code) b.accepts ++ e2 b.capacity
    ++ e2 b.occupied ++ eOpt eText b.route ++ e2 b.reserved ++ e2signed b.free

/-- BLOCK_SET at its owner (R163). -/
def serveBlockSet (b : Fin 48) (r : BlockReq) (s : State) : Answer :=
  match blockCheck s b r with
  | some code => refuse s code
  | none =>
    let t := ((s.modBlock b fun bl => bl.apply r).retryIf ((s.yard.blocks[b]).apply r != s.yard.blocks[b])).startJobs
    accept t (eBlock t.yard.blocks[b])

/-- BLOCK_SET (R163). -/
def execBlockSet (s : State) : Host.Outcome State Fault Refusal :=
  live s (takeRequest 0x38#8 dBlockSet (fun r t =>
    if h : r.1 < 48 then serveBlockSet ⟨r.1, h⟩ r.2 t else refuse t .badParam) s)

/-! ### BLOCK_QUERY (R181) -/

/-- A leg holds a reservation in a block (R162). -/
def Leg.reserves (b : Fin 48) (l : Leg) : Bool :=
  l.disposition == .yard && l.kind.any Kind.isDrop && !l.done && l.dest == some (.block b)

/-- The fields of BLOCK_QUERY with a block (R181). -/
def eBlockQuery (s : State) (b : Fin 48) : List Byte :=
  let bl := s.yard.blocks[b]
  e1 bl.state.code ++ eOpt eText bl.code ++ eOpt (fun a : Accepts => e1 a.code) bl.accepts ++ e2 bl.capacity
    ++ e2 bl.occupied ++ e2 bl.reserved ++ e2signed bl.free ++ eOpt eText bl.route
    ++ e1 (s.openLegs.countP (Leg.reserves b))
    ++ eList (fun g : Fin 32 => e1 g.val) ((List.finRange 32).filter fun g => s.yard.groups[g].contains b)

/-- An entry of the yard-wait queue as reported (R181): handle, lane, remaining count. -/
def eWaiting (s : State) (h : Handle) : List Byte :=
  match s.named h with
  | some x => eHandle h ++ eLane x.lane ++ e2 (s.lane x.lane).dwell.count
  | none => []

/-- The code, state and place list of a bay (R181). -/
def eBay (y : Bay) : List Byte := eText y.code ++ e1 (if y.isOpen then 0 else 1) ++ eList ePlace y.places

/-- The fields of BLOCK_QUERY with no block (R181). -/
def eYard (s : State) : List Byte :=
  eList (eWaiting s) s.yard.queue ++ (List.finRange 4).flatMap fun b => eBay s.yard.bays[b]

/-- BLOCK_QUERY at its owner (R181). -/
def serveBlockQuery (r : Option Nat) (s : State) : Answer :=
  match r with
  | none => accept s (eYard s)
  | some b => if h : b < 48 then accept s (eBlockQuery s ⟨b, h⟩) else refuse s .badParam

/-- BLOCK_QUERY (R181). -/
def execBlockQuery (s : State) : Host.Outcome State Fault Refusal :=
  live s (takeRequest 0x39#8 (dOpt d1) serveBlockQuery s)

/-! ### GROUP_SET (R165) -/

/-- The fields of GROUP_SET: a group number, and a list or "unchanged". -/
def dGroupSet : Dec (Nat × Option (List Nat)) := do
  let g ← d1
  let l ← dOpt (dList 4 d1)
  return (g, l)

/-- A number as received names a defined block. -/
def State.definedBlock (s : State) (b : Nat) : Bool := if h : b < 48 then s.yard.blocks[b].state != .undefined else false

/-- The block numbers of a list that has been checked. -/
def toBlocks (l : List Nat) : List (Fin 48) := l.filterMap fun b => if h : b < 48 then some ⟨b, h⟩ else none

/-- GROUP_SET at its owner (R165). -/
def serveGroupSet (g : Fin 32) (l : Option (List Nat)) (s : State) : Answer :=
  match l with
  | none => accept s (eList (fun b : Fin 48 => e1 b.val) s.yard.groups[g])
  | some bs =>
    if bs.all s.definedBlock && decide bs.Nodup then
      let t := (({ s with yard := { s.yard with groups := s.yard.groups.set g (toBlocks bs) } } : State).retryIf
        (s.yard.groups[g] != toBlocks bs)).startJobs
      accept t (eList (fun b : Fin 48 => e1 b.val) t.yard.groups[g])
    else refuse s .badParam

/-- GROUP_SET (R165). -/
def execGroupSet (s : State) : Host.Outcome State Fault Refusal :=
  live s (takeRequest 0x3A#8 dGroupSet (fun r t =>
    if h : r.1 < 32 then serveGroupSet ⟨r.1, h⟩ r.2 t else refuse t .badParam) s)

/-! ### BAY_SET (R167) -/

/-- The fields of BAY_SET after its bay number: a value or "unchanged" for each. -/
structure BayReq where
  code : Option Text
  route : Option Text
  isOpen : Option Bool
  deriving DecidableEq, Repr

/-- The fields of BAY_SET; the states are OPEN (00h) and CLOSED (01h). -/
def dBaySet : Dec (Nat × BayReq) := do
  let b ← d1
  let code ← dOpt dText
  let route ← dOpt dText
  let isOpen ← dOpt (dEnum [true, false])
  return (b, ⟨code, route, isOpen⟩)

/-- A bay with the given values (R167). -/
def Bay.apply (y : Bay) (r : BayReq) : Bay :=
  { y with
    code := r.code.getD y.code
    route := (r.route.map (·.take 20)).getD y.route
    isOpen := r.isOpen.getD y.isOpen }

/-- The response of BAY_SET (R167). -/
def eBaySet (y : Bay) : List Byte :=
  eText y.code ++ eText y.route ++ e1 (if y.isOpen then 0 else 1) ++ eList ePlace y.places

/-- BAY_SET at its owner (R167). -/
def serveBaySet (b : Fin 4) (r : BayReq) (s : State) : Answer :=
  if r.code.all (lengthIn 1 4) then
    let opened := (s.yard.bays[b].apply r).isOpen && !s.yard.bays[b].isOpen
    let t := ((s.modBay b fun y => y.apply r).retryIf opened).startJobs
    accept t (eBaySet t.yard.bays[b])
  else refuse s .badParam

/-- BAY_SET (R167). -/
def execBaySet (s : State) : Host.Outcome State Fault Refusal :=
  live s (takeRequest 0x3B#8 dBaySet (fun r t =>
    if h : r.1 < 4 then serveBaySet ⟨r.1, h⟩ r.2 t else refuse t .badParam) s)

/-! ### LEG_DONE (R176, R177) -/

/-- The fields of LEG_DONE. -/
def dLegDone : Dec ((Nat × Nat) × Nat) := do
  let h ← dHandle
  let i ← d1
  return (h, i)

/-- The leg that a leg number names (R176, step 2). -/
def Visit.leg (x : Visit) (i : Nat) : Option Leg := if i = 1 ∨ i = 2 then x.legs[i - 1]? else none

/-- Steps 3 to 5 of R176 hold nothing against the leg. -/
def Leg.canFinish (x : Visit) (l : Leg) : Bool :=
  x.state == .enRoute && (l.disposition == .yard || l.disposition == .inspect) && l.dest.isSome && !l.done

/-- The leg is marked done and its destination is converted (R177), and a retry follows (R173). -/
def State.finishLeg (s : State) (v : Fin 64) (i : Nat) (l : Leg) : State :=
  (((s.convertLeg (s.handle v) i l).modVisit v fun y =>
    { y with legs := y.legs.set (i - 1) { l with done := true } }).retry).startJobs

/-- The block of a destination. -/
def destBlock (s : State) : Option Dest → Option Block
  | some (.block b) => some s.yard.blocks[b]
  | some (.bay _) | none => none

/-- The response of LEG_DONE (R176): the leg's disposition, destination and done mark, and the counts of a block
destination, each with a presence byte. -/
def eLegDone (s : State) (l : Leg) : List Byte :=
  let bl := destBlock s l.dest
  e1 l.disposition.code ++ eOpt eDest l.dest ++ eFlag true ++ eOpt (fun b : Block => e2 b.capacity) bl
    ++ eOpt (fun b : Block => e2 b.occupied) bl ++ eOpt (fun b : Block => e2 b.reserved) bl
    ++ eOpt (fun b : Block => e2signed b.free) bl

/-- LEG_DONE at its owner (R176). -/
def serveLegDone (i : Nat) (v : Fin 64) (x : Visit) (s : State) : Answer :=
  match x.leg i with
  | none => refuse s .badParam
  | some l =>
    if l.canFinish x then
      let t := s.finishLeg v i l
      accept t (eLegDone t l)
    else refuse s .wrongState

/-- LEG_DONE (R176). -/
def execLegDone (s : State) : Host.Outcome State Fault Refusal :=
  live s (takeRequest 0x3C#8 dLegDone (fun r t => onVisit r.1 t fun v x => serveLegDone r.2 v x t) s)

end Sys2Proof.Machine
end

