-- ==== Sys2Proof/Machine/Dispatch.lean ====
section
/-!
DEFINITION. One arm per command: the command's meaning.
-/

namespace Sys2Proof.Machine

def exec (i : Instr) (s : State) : Host.Outcome State Fault Refusal :=
  match i with
  | .requestFrameArrival bytes => Sys2Proof.Machine.execRequestFrameArrival bytes s
  | .readTransfer clocked => Sys2Proof.Machine.execReadTransfer clocked s
  | .transferOperationError op clocked => Sys2Proof.Machine.execTransferOperationError op clocked s
  | .linkResetAssert inTransfer => Sys2Proof.Machine.execLinkResetAssert inTransfer s
  | .linkResetRelease => Sys2Proof.Machine.execLinkResetRelease s
  | .prstAssert => Sys2Proof.Machine.execPrstAssert s
  | .powerOn => Sys2Proof.Machine.execPowerOn s
  | .tickEvent => Sys2Proof.Machine.execTickEvent s
  | .minuteEvent => Sys2Proof.Machine.execMinuteEvent s
  | .unknownRequest => Sys2Proof.Machine.execUnknownRequest s
  | .status => Sys2Proof.Machine.execStatus s
  | .changeNext => Sys2Proof.Machine.execChangeNext s
  | .attnEnableSet => Sys2Proof.Machine.execAttnEnableSet s
  | .attnEnableClear => Sys2Proof.Machine.execAttnEnableClear s
  | .gateRestart => Sys2Proof.Machine.execGateRestart s
  | .timeSet => Sys2Proof.Machine.execTimeSet s
  | .tickSet => Sys2Proof.Machine.execTickSet s
  | .bookCreate => Sys2Proof.Machine.execBookCreate s
  | .bookAmend => Sys2Proof.Machine.execBookAmend s
  | .bookCancel => Sys2Proof.Machine.execBookCancel s
  | .bookRetire => Sys2Proof.Machine.execBookRetire s
  | .bookQuery => Sys2Proof.Machine.execBookQuery s
  | .bookScan => Sys2Proof.Machine.execBookScan s
  | .windowPlan => Sys2Proof.Machine.execWindowPlan s
  | .windowSet => Sys2Proof.Machine.execWindowSet s
  | .windowSetAllowances => Sys2Proof.Machine.execWindowSetAllowances s
  | .defaultQuota => Sys2Proof.Machine.execDefaultQuota s
  | .windowQuery => Sys2Proof.Machine.execWindowQuery s
  | .laneMode => Sys2Proof.Machine.execLaneMode s
  | .laneSet => Sys2Proof.Machine.execLaneSet s
  | .laneAbort => Sys2Proof.Machine.execLaneAbort s
  | .laneReset => Sys2Proof.Machine.execLaneReset s
  | .pointWrite => Sys2Proof.Machine.execPointWrite s
  | .pointRead => Sys2Proof.Machine.execPointRead s
  | .laneFlagsClear => Sys2Proof.Machine.execLaneFlagsClear s
  | .visitQuery => Sys2Proof.Machine.execVisitQuery s
  | .visitClose => Sys2Proof.Machine.execVisitClose s
  | .visitDecide => Sys2Proof.Machine.execVisitDecide s
  | .checkSet => Sys2Proof.Machine.execCheckSet s
  | .sealSet => Sys2Proof.Machine.execSealSet s
  | .mixSet => Sys2Proof.Machine.execMixSet s
  | .graderStatus => Sys2Proof.Machine.execGraderStatus s
  | .blockSet => Sys2Proof.Machine.execBlockSet s
  | .blockQuery => Sys2Proof.Machine.execBlockQuery s
  | .groupSet => Sys2Proof.Machine.execGroupSet s
  | .baySet => Sys2Proof.Machine.execBaySet s
  | .legDone => Sys2Proof.Machine.execLegDone s
  | .signSet => Sys2Proof.Machine.execSignSet s
  | .indexEngineGrant => Sys2Proof.Machine.execIndexEngineGrant s
  | .indexOperationComplete => Sys2Proof.Machine.execIndexOperationComplete s
  | .identificationComplete => Sys2Proof.Machine.execIdentificationComplete s
  | .catchUpRetirement => Sys2Proof.Machine.execCatchUpRetirement s
  | .loopEvent lane loop level => Sys2Proof.Machine.execLoopEvent lane loop level s
  | .laneFrameArrival lane chars => Sys2Proof.Machine.execLaneFrameArrival lane chars s
  | .laneFrameTake lane => Sys2Proof.Machine.execLaneFrameTake lane s
  | .approachLimitExpiry lane => Sys2Proof.Machine.execApproachLimitExpiry lane s
  | .settleExpiry lane => Sys2Proof.Machine.execSettleExpiry lane s
  | .cardLimitExpiry lane => Sys2Proof.Machine.execCardLimitExpiry lane s
  | .holdTimeout lane => Sys2Proof.Machine.execHoldTimeout lane s
  | .yardWaitLimitExpiry lane => Sys2Proof.Machine.execYardWaitLimitExpiry lane s
  | .clearLimitExpiry lane => Sys2Proof.Machine.execClearLimitExpiry lane s
  | .refreshEvent lane => Sys2Proof.Machine.execRefreshEvent lane s
  | .replyTimerExpiry lane => Sys2Proof.Machine.execReplyTimerExpiry lane s
  | .signReply lane chars => Sys2Proof.Machine.execSignReply lane chars s
  | .gradingEngineTake => Sys2Proof.Machine.execGradingEngineTake s
  | .gradingCompletion => Sys2Proof.Machine.execGradingCompletion s
  | .frameCutShort lane => Sys2Proof.Machine.execFrameCutShort lane s

end Sys2Proof.Machine
end

