-- ==== Sys2Proof/Safety.lean ====
section
/-!
DEFINITION. The terms in which the statements speak: when a host request can start, what its answer adds to the state,
and the invariants of the part.
-/

namespace Sys2Proof.Machine

/-! ### A host request that starts (R203) -/

/-- The part has power and the oldest queued request is `f`, with this code: no request is in execution and the response
queue has a place, so that the request starts (R203). `rest` are the frames behind it. -/
structure State.Ready (s : State) (code : Byte) (f : ReqFrame) (rest : List ReqFrame) : Prop where
  power : s.prst = false
  queue : s.link.requests = f :: rest
  code : f.code = code
  none : s.link.exec = none
  place : s.link.responses.length < 16

/-- The state with the oldest request frame removed from the queue: what the request's owner sees. -/
def State.taken (s : State) (rest : List ReqFrame) : State := { s with link := { s.link with requests := rest } }

/-- The state with the response to a request at the newest end of the response queue: code and tag as received, the
result and the fields (R204). -/
def State.answered (s : State) (f : ReqFrame) (r : Result) (fields : List Byte) : State :=
  { s with link := { s.link with responses := s.link.responses ++ [⟨f.code, f.tag, r, fields⟩] } }

/-- The request code of each command that starts a host request (R203's table); the other commands start none. -/
def requestCode : Instr → Option Byte
  | .status => some 0x01#8
  | .changeNext => some 0x02#8
  | .attnEnableSet => some 0x03#8
  | .attnEnableClear => some 0x04#8
  | .gateRestart => some 0x05#8
  | .timeSet => some 0x08#8
  | .tickSet => some 0x09#8
  | .bookCreate => some 0x10#8
  | .bookAmend => some 0x11#8
  | .bookCancel => some 0x12#8
  | .bookRetire => some 0x13#8
  | .bookQuery => some 0x14#8
  | .bookScan => some 0x15#8
  | .windowPlan => some 0x18#8
  | .windowSet => some 0x19#8
  | .windowSetAllowances => some 0x1A#8
  | .defaultQuota => some 0x1B#8
  | .windowQuery => some 0x1C#8
  | .laneMode => some 0x20#8
  | .laneSet => some 0x21#8
  | .laneAbort => some 0x22#8
  | .laneReset => some 0x23#8
  | .pointWrite => some 0x24#8
  | .pointRead => some 0x25#8
  | .laneFlagsClear => some 0x26#8
  | .visitQuery => some 0x28#8
  | .visitDecide => some 0x29#8
  | .visitClose => some 0x2A#8
  | .checkSet => some 0x30#8
  | .sealSet => some 0x31#8
  | .mixSet => some 0x34#8
  | .graderStatus => some 0x35#8
  | .blockSet => some 0x38#8
  | .blockQuery => some 0x39#8
  | .groupSet => some 0x3A#8
  | .baySet => some 0x3B#8
  | .legDone => some 0x3C#8
  | .signSet => some 0x40#8
  | .requestFrameArrival _ | .readTransfer _ | .transferOperationError _ _ | .linkResetAssert _ | .linkResetRelease
  | .prstAssert | .powerOn | .tickEvent | .minuteEvent | .unknownRequest | .indexEngineGrant | .indexOperationComplete
  | .identificationComplete | .catchUpRetirement | .loopEvent _ _ _ | .laneFrameArrival _ _ | .laneFrameTake _
  | .approachLimitExpiry _ | .settleExpiry _ | .cardLimitExpiry _ | .holdTimeout _ | .yardWaitLimitExpiry _
  | .clearLimitExpiry _ | .refreshEvent _ | .replyTimerExpiry _ | .signReply _ _ | .gradingEngineTake
  | .gradingCompletion | .frameCutShort _ => none

/-- The fields of a request, as its rule lays them out, decode (R204, R219). For a command that starts no host request
the question does not arise. -/
def fieldsDecode (c : Instr) (fields : List Byte) : Bool :=
  match c with
  | .status | .changeNext | .gateRestart => (decodeAll dNone fields).isSome
  | .attnEnableSet | .attnEnableClear => (decodeAll (dMask 3) fields).isSome
  | .timeSet => (decodeAll d4 fields).isSome
  | .tickSet => (decodeAll dTickSet fields).isSome
  | .bookCreate => (decodeAll dCreate fields).isSome
  | .bookAmend => (decodeAll dAmend fields).isSome
  | .bookCancel | .bookRetire | .bookQuery => (decodeAll dText fields).isSome
  | .bookScan => (decodeAll dScan fields).isSome
  | .windowPlan => (decodeAll dPlan fields).isSome
  | .windowSet => (decodeAll dWindowSet fields).isSome
  | .windowSetAllowances => (decodeAll dAllowances fields).isSome
  | .defaultQuota => (decodeAll dQuotas fields).isSome
  | .windowQuery => (decodeAll (dOpt d4) fields).isSome
  | .laneMode => (decodeAll dLaneMode fields).isSome
  | .laneSet => (decodeAll dLaneSet fields).isSome
  | .laneAbort | .laneReset | .pointRead => (decodeAll d1 fields).isSome
  | .pointWrite => (decodeAll dPointWrite fields).isSome
  | .laneFlagsClear => (decodeAll dFlagsClear fields).isSome
  | .visitQuery | .visitClose => (decodeAll dHandle fields).isSome
  | .visitDecide => (decodeAll dDecide fields).isSome
  | .checkSet => (decodeAll dFloors fields).isSome
  | .sealSet => (decodeAll dSealSet fields).isSome
  | .mixSet => (decodeAll dMix fields).isSome
  | .graderStatus => (decodeAll (dEnum [true, false]) fields).isSome
  | .blockSet => (decodeAll dBlockSet fields).isSome
  | .blockQuery => (decodeAll (dOpt d1) fields).isSome
  | .groupSet => (decodeAll dGroupSet fields).isSome
  | .baySet => (decodeAll dBaySet fields).isSome
  | .legDone => (decodeAll dLegDone fields).isSome
  | .signSet => (decodeAll dSignSet fields).isSome
  | .requestFrameArrival _ | .readTransfer _ | .transferOperationError _ _ | .linkResetAssert _ | .linkResetRelease
  | .prstAssert | .powerOn | .tickEvent | .minuteEvent | .unknownRequest | .indexEngineGrant | .indexOperationComplete
  | .identificationComplete | .catchUpRetirement | .loopEvent _ _ _ | .laneFrameArrival _ _ | .laneFrameTake _
  | .approachLimitExpiry _ | .settleExpiry _ | .cardLimitExpiry _ | .holdTimeout _ | .yardWaitLimitExpiry _
  | .clearLimitExpiry _ | .refreshEvent _ | .replyTimerExpiry _ | .signReply _ _ | .gradingEngineTake
  | .gradingCompletion | .frameCutShort _ => false

/-- A text field as the host sends it: a count byte and the characters, not yet normalised (R219). -/
def eRaw (raw : List Byte) : List Byte := e1 raw.length ++ raw

/-- A lane's number as a host sends it. -/
def laneByte (n : Lane) : Byte := BitVec.ofNat 8 (n.val + 1)

/-! ### Commands that are the levels of input lines -/

/-- The commands that say what an input line does (PRST, LRST, a loop line): the lines are the outside's, whatever the
part does (R44, R206, R217). -/
def isPinLevel : Instr → Bool
  | .prstAssert | .powerOn | .linkResetAssert _ | .linkResetRelease | .loopEvent _ _ _ => true
  | .requestFrameArrival _ | .readTransfer _ | .transferOperationError _ _ | .tickEvent | .minuteEvent
  | .unknownRequest | .status | .changeNext | .attnEnableSet | .attnEnableClear | .gateRestart | .timeSet | .tickSet
  | .bookCreate | .bookAmend | .bookCancel | .bookRetire | .bookQuery | .bookScan | .windowPlan | .windowSet
  | .windowSetAllowances | .defaultQuota | .windowQuery | .laneMode | .laneSet | .laneAbort | .laneReset | .pointWrite
  | .pointRead | .laneFlagsClear | .visitQuery | .visitClose | .visitDecide | .checkSet | .sealSet | .mixSet
  | .graderStatus | .blockSet | .blockQuery | .groupSet | .baySet | .legDone | .signSet | .indexEngineGrant
  | .indexOperationComplete | .identificationComplete | .catchUpRetirement | .laneFrameArrival _ _ | .laneFrameTake _
  | .approachLimitExpiry _ | .settleExpiry _ | .cardLimitExpiry _ | .holdTimeout _ | .yardWaitLimitExpiry _
  | .clearLimitExpiry _ | .refreshEvent _ | .replyTimerExpiry _ | .signReply _ _ | .gradingEngineTake
  | .gradingCompletion | .frameCutShort _ => false

/-! ### The window ring (R26, R29, R30) -/

/-- The ring's entries (R25, R26): at most 96, their starts rising by the length of the plan, which is above 0, and none
above the largest gate minute. -/
structure Ring.Kept (r : Ring) : Prop where
  count : r.windows.length ≤ 96
  span : r.windows ≠ [] → 0 < r.span
  rising : ∀ (i : Nat) (a b : Window), r.windows[i]? = some a → r.windows[i + 1]? = some b → b.start = a.start + r.span
  last : ∀ w ∈ r.windows, w.start ≤ 4294967295

/-- The oldest window has reached its retirement minute, S + L + G (R26, R29). -/
def Ring.OldestDue (r : Ring) (minute : Nat) : Prop := ∃ w ∈ r.windows.head?, w.start + r.span + r.grace ≤ minute

/-- The retirement of the oldest window `w`, whole (R22, R30); `newer` are the entries behind it and `newest` is the
start of the newest entry before the append. -/
def State.retired (s : State) (w : Window) (newer : List Window) (newest : Nat) : State :=
  { s with
    book := { s.book with
      records := s.book.records.map fun p =>
        (p.1, if p.2.window = some w.start then
          { p.2 with window := none, state := if p.2.state = .booked then .noShow else p.2.state } else p.2)
      noShow := s.book.noShow
        + s.book.records.countP fun p => p.2.window == some w.start && p.2.state == .booked }
    ring := { s.ring with
      windows := newer ++ if newest + s.ring.span ≤ 4294967295 then
        [⟨newest + s.ring.span, s.ring.defaults, ⟨0, 0, 0, 0⟩, ⟨0, 0, 0, 0⟩⟩] else [] } }

/-! ### Reasons (R146) -/

/-- The numbers of the reasons that stand, in the order of R146. -/
def standing (r : Reasons) : List Nat :=
  (if r.approachTimeout then [0] else []) ++ (if r.noCard then [1] else []) ++ (if r.cardUnreadable then [2] else [])
    ++ (if r.teuLimit then [3] else []) ++ (if r.plateMismatch then [4] else []) ++ (if r.plateUnread then [5] else [])
    ++ (if r.linkLoss then [6] else []) ++ if r.noYardSpace then [7] else []

/-! ### What an event's end may do to the signs (R188, R191) -/

/-- A Sign Unit at the end of an event: as it was, or with its due job started, its settings and its mirror kept. -/
def Sign.MayStart (old new : Sign) : Prop :=
  new = old ∨ (old.job = .idle ∧ (∃ j, new.job = .sending j)
    ∧ new = { old with
        job := new.job, seq := new.seq, reply := new.reply, replyDue := false, printDue := new.printDue
        sent := new.sent })

/-- Every Sign Unit is as it was, or has its due job started. -/
def SignsMayStart (s t : State) : Prop := ∀ n : Lane, (s.sign n).MayStart (t.sign n)

/-- The visit is lane-resident on a lane: the lane names its slot and the slot is open. -/
def State.Resident (s : State) (n : Lane) (v : Fin 64) (x : Visit) : Prop :=
  (s.lane n).resident = some v ∧ s.visit v = some x

/-- A visit as a rejection leaves it (R63, R83, R144): REJECTED with a reason, its legs not done dropped. -/
def Visit.rejected (x : Visit) (why : RejectReason) : Visit :=
  { x with
    state := .rejected
    rejectReason := some why
    outcome := none
    holdStart := none
    timeoutDue := false
    grading := .closed
    legs := x.legs.map fun l => if l.done then l else { l with disposition := .dropped, dest := none } }

/-! ### What a rejection, a close and a reset give back (R83, R144, R178, R180, R197) -/

/-- The TEU that a visit's legs hold reserved in a block (R162). -/
def reservedTeu (b : Fin 48) (legs : List Leg) : Nat := ((legs.filter (Leg.reserves b)).map fun l => l.teu.getD 0).sum

/-- A leg stands in an inspection bay (R166): disposition INSPECT, destined to it and not done. -/
def Leg.standsIn (b : Fin 4) (l : Leg) : Bool := l.disposition == .inspect && !l.done && l.dest == some (.bay b)

/-- The yard with the reservations and the bay places of a visit's legs given back (R178). -/
def Yard.givenBack (y : Yard) (h : Handle) (legs : List Leg) : Yard :=
  { y with
    blocks := Vector.ofFn fun b => { y.blocks[b] with reserved := y.blocks[b].reserved - reservedTeu b legs }
    bays := Vector.ofFn fun b => { y.bays[b] with
      places := y.bays[b].places.filter fun p => !legs.zipIdx.any fun e => p == ⟨h, e.2 + 1⟩ && e.1.standsIn b } }

/-- The bookings of some legs of a visit reverted, in list order (R20, R155). -/
def State.reverted (s : State) (h : Handle) (legs : List Leg) : State := legs.foldl (fun u l => u.revertBooking l h) s

/-- The rejection of the visit `x` in a slot, at every block but its lane's (R83, R180): the visit is REJECTED, the
bookings of its legs not done are reverted, its reservations and bay places are given back, it leaves the yard-wait
queue and joins the change set. -/
def State.rejection (s : State) (v : Fin 64) (x : Visit) (why : RejectReason) : State :=
  let reverted := s.reverted (s.handle v) (x.legs.filter fun l => !l.done)
  { s with
    link := { s.link with changes := joinList (.visit v) s.link.changes }
    book := reverted.book
    ring := reverted.ring
    visits := s.visits.set v { s.visits[v] with visit := some (x.rejected why) }
    yard := { s.yard.givenBack (s.handle v) x.legs with queue := s.yard.queue.filter (· != s.handle v) } }

/-- A Lane Unit as a reset leaves it (R58, R85, R88), but for its mode and its closing mark. -/
def LaneUnit.afterReset (l : LaneUnit) : LaneUnit :=
  { l with
    resident := none
    releasing := false
    entryCleared := false
    exitSeen := false
    clearOverdue := false
    dwell := .stopped
    refresh := l.limits.refresh
    refreshDue := 0
    buffer := []
    flags := ⟨false, false, false, false⟩ }

/-- The number of a class's lines (R184); the 10 of a TICKET's mirror: DESIGN CHOICE, notes/assumptions/24. -/
def SignClass.count : SignClass → Nat
  | .line2 => 2
  | .line4 => 4
  | .ticket => 10

/-- A Sign Unit with its job abandoned and its mirror UNKNOWN (R197, R199). -/
def Sign.abandoned (g : Sign) : Sign :=
  { g with job := .idle, reply := 0, replyDue := false, printDue := false, mirror := List.replicate g.cls.count none }

/-- A Sign Unit as LANE_RESET and GATE_RESTART leave it before the next job (R197). -/
def Sign.afterReset (g : Sign) : Sign := { g.abandoned with reportMark := false, abortSubject := none }

/-- A Sign Unit with a job of some lines just started: its first line is sent with the current sequence value (R191,
R192). `final` is the final mark of that line. -/
def Sign.sending (g : Sign) (limit first : Nat) (lines : List Line) (subject : Option Handle) (directions final : Bool) :
    Sign :=
  { g with
    job := .sending ⟨lines, first, first, g.seq, subject, directions⟩
    seq := (g.seq + 1) % 256
    reply := limit
    replyDue := false
    printDue := if g.cls = .ticket then false else g.printDue
    sent := g.sent ++ [.line g.seq first final (lines.getD 0 [])] }

/-! ### What closes a visit's grading (R133 to R135) and what ends CHECKING (R75) -/

/-- A lane's pending slot emptied, a scan in it counted late (R123, R133). -/
def GradeLane.emptied (g : GradeLane) : GradeLane :=
  match g.pending with
  | none => g
  | some _ => { g with pending := none, late := min 65535 (g.late + 1) }

/-- A visit after the settle notice (R135). `inFlight` says that a scan from the lane is in flight. -/
def Visit.noticed (x : Visit) (inFlight : Bool) : Visit :=
  match x.grading, inFlight with
  | .isOpen, true => { x with grading := .closing }
  | .isOpen, false => { x with grading := .closed, stability := ⟨x.stability.one.force, x.stability.two.force⟩ }
  | .closing, _ | .closed, _ => x

/-- A position has a settled result (R131). -/
def Stability.settled (p : Stability) : Bool :=
  match p.result with
  | some r => r.basis == .settled
  | none => false

/-- The four conditions of an early completion of the grading (R134), for the visit `x` in a slot. `n` is the lane whose
pending slot is asked. -/
structure State.ClosesEarly (s : State) (n : Lane) (v : Fin 64) (x : Visit) : Prop where
  isOpen : x.grading = .isOpen
  drops : x.dropLegs = some 1 ∨ x.dropLegs = some 2
  enough : ∀ k ∈ x.dropLegs, k ≤ [x.stability.one, x.stability.two].countP Stability.settled
  seen : ∀ p : Pos, 0 < (x.stability.get p).scans → (x.stability.get p).settled = true
  waiting : ∀ c, s.grader.lanes[n].pending = some c → c.handle = s.handle v → (x.stability.get c.pos).result ≠ none
  flying : ∀ m c, s.grader.inFlight = some (m, c) → c.handle = s.handle v → (x.stability.get c.pos).result ≠ none

/-- A leg is a drop leg (R2, R63). -/
def Leg.IsDrop (l : Leg) : Prop := l.kind = some .exportFull ∨ l.kind = some .emptyReturn

/-- The three conditions that end CHECKING (R75). -/
structure Visit.CheckingEnds (x : Visit) : Prop where
  settled : x.settleExpired = true
  card : x.card = .done ∨ x.reasons.noCard = true
  grading : x.grading = .closed ∨ x.card = .done ∧ ∀ l ∈ x.legs, ¬ l.IsDrop

/-! ### Allocation (R168 to R171) -/

/-- The first element of a list that meets a condition. -/
def FirstOf {α : Type} (p : α → Prop) (l : List α) (a : α) : Prop :=
  ∃ before after, l = before ++ a :: after ∧ p a ∧ ∀ c ∈ before, ¬ p c

/-- The record of a leg's booking, where the leg's slot is live and holds its reference (R18). -/
def Leg.Books (b : Book) (l : Leg) (r : Booking) : Prop :=
  ∃ k, l.slot = some k ∧ tableFind k b.records = some r ∧ r.ref = l.ref

/-- An allocation places the leg (R168): disposition YARD or INSPECT, and not done. -/
def Leg.IsPlaced (l : Leg) : Prop := (l.disposition = .yard ∨ l.disposition = .inspect) ∧ l.done = false

/-- The TEU tentatively given in a block to the drop legs before leg `i` (R169). -/
def tentative (legs : List Leg) (dests : List (Option Dest)) (i : Nat) (b : Fin 48) : Nat :=
  ((((legs.zip dests).take i).filter fun p => p.1.kind.any Kind.isDrop && p.2 == some (.block b)).map fun p =>
    p.1.teu.getD 0).sum

/-- A block takes a yard drop leg (R169): it is OPEN, accepts the kind, and the TEU, with what the records and the
earlier legs of the allocation take, does not pass its capacity. -/
def Block.Takes (bl : Block) (k : Kind) (teu before : Nat) : Prop :=
  bl.state = .isOpen
  ∧ (bl.accepts = some .both ∨ bl.accepts = some .exportFull ∧ k = .exportFull
    ∨ bl.accepts = some .emptyReturn ∧ k = .emptyReturn)
  ∧ bl.occupied + bl.reserved + teu + before ≤ bl.capacity

/-- The rules R169 to R171 give leg `i` the destination `d`, the earlier legs having the destinations in `dests`. -/
def State.Gives (s : State) (legs : List Leg) (dests : List (Option Dest)) (i : Nat) (l : Leg) : Dest → Prop
  | .block b => l.disposition = .yard ∧ ∃ k r, l.kind = some k ∧ l.Books s.book r
      ∧ ((k = .exportFull ∨ k = .emptyReturn) → ∃ g : Fin 32, r.group = some g.val
          ∧ FirstOf (fun c : Fin 48 => s.yard.blocks[c].Takes k (l.teu.getD 0) (tentative legs dests i c)) s.yard.groups[g] b)
      ∧ ((k = .importPickup ∨ k = .emptyPickup) → r.block = some b.val ∧ s.yard.blocks[b].state ≠ .undefined)
  | .bay b => l.disposition = .inspect ∧ l.IsDrop
      ∧ FirstOf (fun c : Fin 4 => s.yard.bays[c].isOpen = true
          ∧ s.yard.bays[c].places.length + (dests.take i).count (some (.bay c)) < 2) (List.finRange 4) b

/-- The yard with the destinations of a visit's legs committed (R168): the yard drop legs' TEU reserved, the inspection
legs at the newest end of their bays' place lists. -/
def Yard.committed (y : Yard) (h : Handle) (legs : List Leg) (dests : List (Option Dest)) : Yard :=
  { y with
    blocks := Vector.ofFn fun b => { y.blocks[b] with
      reserved := y.blocks[b].reserved + tentative legs dests legs.length b }
    bays := Vector.ofFn fun b => { y.bays[b] with
      places := y.bays[b].places ++ ((dests.zipIdx.filter fun e => e.1 == some (.bay b)).map fun e => ⟨h, e.2 + 1⟩) } }

/-! ### The index engine (R9, R10) -/

/-- A booking request of the host is in flight on the index engine, and no lane waits. -/
structure State.Completing (s : State) (e : Execution) (req : BookReq) : Prop where
  power : s.prst = false
  flight : s.engine.inFlight = some .host
  exec : s.link.exec = some e
  work : e.work = .booking req
  alone : ∀ n : Lane, s.engine.waiting[n] = none

/-- The engine is free and the request's execution has ended: its response is queued, or discarded where LRST marked it
(R10, R203, R206). -/
def State.completed (s : State) (e : Execution) (r : Result) (fields : List Byte) : State :=
  { s with
    engine := { s.engine with inFlight := none }
    link := { s.link with
      exec := none
      responses := if e.discard then s.link.responses else s.link.responses ++ [⟨e.code, e.tag, r, fields⟩] } }

/-! ### Invariants -/

/-- The time base's values lie in their ranges (R213 to R215). -/
structure TimeBase.Kept (t : TimeBase) : Prop where
  fine : t.fine < 16
  d : 1000000 ≤ t.d ∧ t.d ≤ 2000000
  f : t.f ≤ 15
  pendD : 1000000 ≤ t.pendD ∧ t.pendD ≤ 2000000
  pendF : t.pendF ≤ 15
  phase : t.phase ≤ 599
  minute : t.minute ≤ 4294967295

/-- The Server Link's bounds (R201 to R203, R207): the queues' places, the count that stays at its largest value, a
place kept for the response of the request in execution, and no item twice in the change set. -/
structure Link.Kept (l : Link) : Prop where
  requests : l.requests.length ≤ 16
  responses : l.responses.length ≤ 16
  errors : l.errors ≤ 65535
  place : ∀ e, l.exec = some e → e.discard = false → l.responses.length < 16
  changes : l.changes.Nodup

/-- The book's records and counts (R1): slots 0 to 8191, each once, the live count of them all and the NO_SHOW count. -/
structure Book.Kept (b : Book) : Prop where
  rising : tableWf b.records
  slots : ∀ p ∈ b.records, p.1 < 8192
  live : b.live = b.records.length
  noShow : b.noShow = b.records.countP fun p => p.2.state == .noShow

/-- The booking index (R6): every entry stands in a bucket and points to a live record, each slot once, and a lookup of
a live booking's reference gives its slot. -/
structure Book.Indexed (b : Book) : Prop where
  rising : tableWf b.index
  entries : ∀ n k, tableFind n b.index = some k → n < Config.buckets ∧ (tableFind k b.records).isSome = true
  once : ∀ n m k, tableFind n b.index = some k → tableFind m b.index = some k → n = m
  found : ∀ k r, tableFind k b.records = some r → b.lookup r.ref = some k

/-- A lane's resident visit is open, on that lane and in a lane-resident state (R62, R64). -/
def State.Seated (s : State) : Prop :=
  ∀ (n : Lane) (v : Fin 64), (s.lane n).resident = some v → ∃ x, s.visit v = some x ∧ x.lane = n ∧ x.state.isResident = true

/-- The window counts (R27): for every window of the ring and every kind, booked is the number of live bookings of that
window and kind, and arrived the number of those in ADMITTED. A booking's window is in the ring, a BOOKED booking has
one and a NO_SHOW booking has none (R3). -/
structure State.Counted (s : State) : Prop where
  inRing : ∀ p ∈ s.book.records, ∀ w, p.2.window = some w → ∃ x ∈ s.ring.windows, x.start = w
  booked : ∀ p ∈ s.book.records, p.2.state = .booked → p.2.window ≠ none
  noShow : ∀ p ∈ s.book.records, p.2.state = .noShow → p.2.window = none
  counts : ∀ x ∈ s.ring.windows, ∀ k : Kind,
    x.booked.get k = s.book.records.countP (fun p => p.2.window == some x.start && p.2.kind == k)
    ∧ x.arrived.get k = s.book.records.countP fun p =>
      p.2.window == some x.start && p.2.kind == k && p.2.state == .admitted

/-- The yard (R150, R162, R166, R172): a lane-resident visit is its lane's resident, and a lane that waits for a slot
has none; a leg's destination follows its disposition, and a visit not placed yet has none; each block's reserved TEU
is the sum of its reservations; a bay's places are its INSPECT legs, each once and at most 2; and the yard-wait queue
names at most 12 visits in YARD_WAIT, each once. -/
structure State.YardKept (s : State) : Prop where
  housed : ∀ v x, s.visit v = some x → x.state.isResident = true → (s.lane x.lane).resident = some v
  waits : ∀ n ∈ s.openWait, (s.lane n).resident = none
  follows : ∀ v x, s.visit v = some x → ∀ l ∈ x.legs,
    (∀ b, l.dest = some (.block b) → l.disposition = .yard) ∧ (∀ b, l.dest = some (.bay b) → l.disposition = .inspect)
  unplaced : ∀ v x, s.visit v = some x →
    x.state = .entering ∨ x.state = .checking ∨ x.state = .held ∨ x.state = .yardWait → ∀ l ∈ x.legs, l.dest = none
  reserved : ∀ b : Fin 48, s.yard.blocks[b].reserved
    = ((List.finRange 64).map fun v => ((s.visit v).map fun x => reservedTeu b x.legs).getD 0).sum
  places : ∀ (b : Fin 4) (p : Place), p ∈ s.yard.bays[b].places ↔
    ∃ x l, s.named p.handle = some x ∧ 1 ≤ p.leg ∧ x.legs[p.leg - 1]? = some l ∧ l.standsIn b = true
  bays : ∀ b : Fin 4, s.yard.bays[b].places.Nodup ∧ s.yard.bays[b].places.length ≤ 2
  queue : s.yard.queue.Nodup ∧ s.yard.queue.length ≤ 12
    ∧ ∀ h ∈ s.yard.queue, ∃ x, s.named h = some x ∧ x.state = .yardWait

/-- The Sign Units (R184, R190, R191): a mirror has one entry for each line of its class, and no idle sign has a job
that is due. -/
structure State.SignsKept (s : State) : Prop where
  mirrors : ∀ n : Lane, (s.sign n).mirror.length = (s.sign n).cls.count
  quiet : ∀ n : Lane, (s.sign n).job = .idle → jobDue s n false = none

/-- The visit that the identification in flight names is not past its review: where it is lane-resident, it is in
ENTERING, CHECKING or HELD (R11, R74, R152). -/
def State.IdentifiesInTime (s : State) : Prop :=
  ∀ n op, s.engine.inFlight = some (.lane n op) → ∀ x, s.named op.handle = some x → x.state.isResident = true →
    x.state = .entering ∨ x.state = .checking ∨ x.state = .held

end Sys2Proof.Machine
end

