-- ==== Sys2Proof/WellFormed.lean ====
section
/-!
DEFINITION. The commands that the outside world can give. Lanes and loops are well formed by their types; one operand
can be wrong.
-/

namespace Sys2Proof

/-- A command is well formed when its operands are ones the step can have. R201: a TRANSFER_OPERATION_ERROR is a
transfer whose operation byte is neither 01h (WRITE) nor 02h (READ). Every other operand may take any value: a frame
of any bytes may arrive, and the part judges it. -/
def Instr.wf : Instr → Bool
  | .transferOperationError op _ => op != 0x01#8 && op != 0x02#8
  | .requestFrameArrival _ | .readTransfer _ | .linkResetAssert _ | .linkResetRelease | .prstAssert | .powerOn
  | .tickEvent | .minuteEvent | .unknownRequest | .status | .changeNext | .attnEnableSet | .attnEnableClear
  | .gateRestart | .timeSet | .tickSet | .bookCreate | .bookAmend | .bookCancel | .bookRetire | .bookQuery | .bookScan
  | .windowPlan | .windowSet | .windowSetAllowances | .defaultQuota | .windowQuery | .laneMode | .laneSet | .laneAbort
  | .laneReset | .pointWrite | .pointRead | .laneFlagsClear | .visitQuery | .visitClose | .visitDecide | .checkSet
  | .sealSet | .mixSet | .graderStatus | .blockSet | .blockQuery | .groupSet | .baySet | .legDone | .signSet
  | .indexEngineGrant | .indexOperationComplete | .identificationComplete | .catchUpRetirement | .loopEvent _ _ _
  | .laneFrameArrival _ _ | .laneFrameTake _ | .approachLimitExpiry _ | .settleExpiry _ | .cardLimitExpiry _
  | .holdTimeout _ | .yardWaitLimitExpiry _ | .clearLimitExpiry _ | .refreshEvent _ | .replyTimerExpiry _
  | .signReply _ _ | .gradingEngineTake | .gradingCompletion | .frameCutShort _ => true

end Sys2Proof
end

