-- ==== Sys2Proof/Certificates/Slice0/Obligations.lean ====
section
/-!
DEFINITION. The statements for the provers, in the order of OBLIGATIONS.json. A statement about a host request speaks of
a state that is ready to start it (`State.Ready`), of the state its owner sees (`State.taken`) and of its answer
(`State.answered`). The equation of a next state says the frame: what the right-hand side does not name is unchanged.
-/

open Sys2Proof Sys2Proof.Machine

/-! ### The block's queue of commands, PRST and the idle period -/

/-- A step runs the command at the front of the queue on the state with the rest of the queue. -/
def Obligations.StepRunsTheFrontCommand : Prop :=
  ∀ (c : Instr) (rest : List Instr) (s : State), s.pending = c :: rest → step s = exec c { s with pending := rest }

/-- With no command waiting one reference period passes (the model's choice, notes/assumptions/1): it is counted in the
tick in progress, and the last period of a tick is the tick boundary of R213. While PRST is held nothing passes. -/
def Obligations.EmptyQueuePassesOneReferencePeriod : Prop :=
  ∀ s : State, s.pending = [] →
    (s.prst = true → step s = .next s)
    ∧ (s.prst = false → s.time.refCount + 1 < s.time.d + (if s.time.fine < s.time.f then 1 else 0) →
        step s = .next { s with time := { s.time with refCount := s.time.refCount + 1 } })
    ∧ (s.prst = false → s.time.d + (if s.time.fine < s.time.f then 1 else 0) ≤ s.time.refCount + 1 →
        step s = exec .tickEvent s)

/-- R217: while PRST is held low no transfer is taken and the part is idle: every command that is not itself the level
of an input line leaves the state as it is, and a loop line or LRST takes its level and nothing else. PRST_ASSERT
releases RDY, RSP and ATTN and leaves the barrier and lamp lines at level 0; nothing else changes before the power-on
event. That the loop lines and LRST still take their levels is the model's choice (notes/assumptions/5). POWER_ON
gives every block its power-on value (R217 and the rules its table names). The queue of commands, the loop lines and
LRST are the outside's and keep their levels. What the outside keeps is the model's choice (notes/assumptions/2 and
5). -/
def Obligations.PrstHoldsThePartIdleAndPowerOnRestoresIt : Prop :=
  ((∀ s : State, s.prst = true →
       (∀ c : Instr, isPinLevel c = false → exec c s = .next s)
       ∧ (∀ (n : Lane) (p : Loop) (b : Bool), ∃ t : State, exec (.loopEvent n p b) s = .next t
           ∧ t = { s with loops := t.loops }
           ∧ (t.loops[n].get p = b) ∧ ∀ (m : Lane) (q : Loop), (m ≠ n ∨ q ≠ p) → t.loops[m].get q = s.loops[m].get q)
       ∧ (∀ b : Bool, exec (.linkResetAssert b) s = .next { s with lrst := true })
       ∧ exec .linkResetRelease s = .next { s with lrst := false })
    ∧ (∀ s : State, ∃ t : State, exec .prstAssert s = .next t ∧ t = { s with prst := true }
         ∧ t.rdy = false ∧ t.rsp = false ∧ t.attn = false
         ∧ ∀ (n : Lane) (p : Fin 7), 3 ≤ p.val → t.lineLevel n p = false))
  ∧ (∀ s : State, ∃ t : State, exec .powerOn s = .next t
      ∧ t.prst = false ∧ t.pending = s.pending ∧ t.loops = s.loops ∧ t.lrst = s.lrst ∧ t.free = s.free
      ∧ (t.link.requests = [] ∧ t.link.responses = [] ∧ t.link.exec = none ∧ t.link.changes = []
          ∧ t.link.attnVisit = false ∧ t.link.attnLane = false ∧ t.link.attnNoShow = false
          ∧ t.link.errors = 0 ∧ t.link.errorKind = .none ∧ t.attn = false ∧ t.rdy = !s.lrst)
      ∧ (t.time.d = 1600000 ∧ t.time.f = 0 ∧ t.time.pendD = 1600000 ∧ t.time.pendF = 0 ∧ t.time.refCount = 0
          ∧ t.time.fine = 0 ∧ t.time.phase = 0 ∧ t.time.minute = 0 ∧ t.time.clockSet = false)
      ∧ (t.book = ⟨[], [], 0, 0⟩ ∧ t.engine.inFlight = none ∧ t.engine.lastGranted = 12
          ∧ ∀ n : Lane, t.engine.waiting[n] = none)
      ∧ (t.ring.length = none ∧ t.ring.windows = [] ∧ t.ring.defaults = ⟨100, 100, 100, 100⟩ ∧ t.ring.early = 30
          ∧ t.ring.grace = 15 ∧ t.ring.reach = 2)
      ∧ (∀ n : Lane, (t.lane n).mode = .manual ∧ t.laneState n = .idle ∧ (t.lane n).closing = false
          ∧ (t.lane n).entryCleared = false ∧ (t.lane n).exitSeen = false ∧ (t.lane n).clearOverdue = false
          ∧ (t.lane n).dwell.form = .stopped ∧ (t.lane n).limits = ⟨1800, 50, 600, 3000, 3000, 600, 20, 5⟩
          ∧ (t.lane n).refresh = 20 ∧ (t.lane n).buffer = [] ∧ (t.lane n).flags = ⟨false, false, false, false⟩
          ∧ ∀ p : Fin 7, (t.lane n).points[p] = ⟨false, false⟩ ∧ (3 ≤ p.val → t.lineLevel n p = false))
      ∧ (t.freeCount = 64 ∧ t.openWait = [] ∧ ∀ v : Fin 64, t.visits[v].visit = none ∧ t.visits[v].gen = 0)
      ∧ t.check = ⟨60, 50, 70, false⟩
      ∧ (t.grader.params = ⟨⟨4096, 0, 0⟩, ⟨0, 4096, 0⟩, ⟨0, 0, 4096⟩, 4, 8, 2, 64, 256, 640, 60, 3⟩
          ∧ t.grader.inFlight = none ∧ t.grader.lastServed = 11
          ∧ ∀ n : Lane, t.grader.lanes[n] = ⟨none, 0, 0⟩)
      ∧ ((∀ b : Fin 48, t.yard.blocks[b] = ⟨.undefined, none, none, 0, 0, 0, none⟩)
          ∧ (∀ g : Fin 32, t.yard.groups[g] = []) ∧ t.yard.queue = []
          ∧ ∀ b : Fin 4, t.yard.bays[b] = ⟨[48 + b.val], [], true, []⟩)
      ∧ ∀ n : Lane, (t.sign n).cls = .line4 ∧ (t.sign n).mode = .once ∧ (t.sign n).desk = []
          ∧ (t.sign n).mirror = [none, none, none, none] ∧ (t.sign n).faults = 0 ∧ (t.sign n).printDue = false
          ∧ (∃ j, (t.sign n).job = .sending j ∧ j.lines = content t n ∧ j.first = 1 ∧ j.awaited = 1)
          ∧ (t.sign n).reply = 5)

/-! ### The transfers of the server link (R201, R202, R205, R206) -/

/-- R202: the arrival of a request frame is judged in order: the length, the check, the queue; the frame that passes is
the newest of the request queue. `len` is the length field. Each discard is a link error of its kind. R206: the
assertion of LRST empties both queues, clears the link error count and kind, marks the request in execution for
discard and ignores a transfer in progress to its end; while it is asserted RDY is low and WRITE transfers are ignored
without a link error; its release takes transfers again. R201, R202: a transfer with an operation byte that is neither
value is ignored to its end and counts as a link error of kind OPERATION; what it shifts out is free
(notes/assumptions/20). A WRITE or a transfer with an unknown operation byte that was in progress at the assertion ends,
before or after the release, with nothing taken and no link error. That `ignoring` is kept until the next transfer
command and cleared by it, that the level of LRST at a transfer's end decides, and that an unknown operation byte under
LRST is no link error, is the model's reading and choice (notes/assumptions/6). Nothing else changes. -/
def Obligations.TransfersAreJudgedAndResetByTheirRules : Prop :=
  (∀ (s : State) (bytes : List Byte), s.prst = false → s.lrst = false → s.link.ignoring = false →
      let len := (bytes.getD 0 0).toNat * 256 + (bytes.getD 1 0).toNat
      let ended : Link := { s.link with sdo := List.replicate bytes.length 0x00#8 }
      let error (k : LinkError) : Host.Outcome State Fault Refusal :=
        .next { s with link := { ended with errors := min 65535 (s.link.errors + 1), errorKind := k } }
      exec (.requestFrameArrival bytes) s =
        if bytes.length ≠ len + 4 ∨ len < 3 ∨ 1020 < len then error .frame
        else if checkBytes (bytes.take (len + 2)) ≠ bytes.drop (len + 2) then error .check
        else if 16 ≤ s.link.requests.length then error .full
        else .next { s with link := { ended with
          requests := s.link.requests
            ++ [⟨bytes.getD 2 0, bytes.getD 3 0 ++ bytes.getD 4 0, (bytes.take (len + 2)).drop 5⟩] } })
  ∧ ((∀ (s : State) (busy : Bool), s.prst = false →
       (s.lrst = false → exec (.linkResetAssert busy) s =
         .next { s with
           lrst := true
           link := { s.link with
             requests := []
             responses := []
             errors := 0
             errorKind := .none
             exec := s.link.exec.map fun e => { e with discard := true }
             ignoring := busy } })
       ∧ (s.lrst = true → s.rdy = false ∧ ∀ bytes : List Byte, exec (.requestFrameArrival bytes) s =
           .next { s with link := { s.link with ignoring := false, sdo := List.replicate bytes.length 0x00#8 } })
       ∧ exec .linkResetRelease s = .next { s with lrst := false })
    ∧ (∀ (s : State) (op : Byte) (n : Nat), (Instr.transferOperationError op n).wf = true →
         s.prst = false → s.lrst = false → s.link.ignoring = false →
         ∃ bytes : List Byte, bytes.length = n ∧ exec (.transferOperationError op n) s =
           .next { s with
             link := { s.link with errors := min 65535 (s.link.errors + 1), errorKind := .operation, sdo := bytes }
             free := s.free + n }))
  ∧ (∀ s : State, s.prst = false → s.link.ignoring = true → ∀ bytes : List Byte, exec (.requestFrameArrival bytes) s =
      .next { s with link := { s.link with ignoring := false, sdo := List.replicate bytes.length 0x00#8 } })
  ∧ (∀ (s : State) (op : Byte) (n : Nat), (Instr.transferOperationError op n).wf = true →
      s.prst = false → (s.lrst = true ∨ s.link.ignoring = true) →
      ∃ bytes : List Byte, bytes.length = n ∧ exec (.transferOperationError op n) s =
        .next { s with link := { s.link with ignoring := false, sdo := bytes }, free := s.free + n })

/-- R219, R202: the request frame that a host builds by the layout of R219 is taken with exactly its code, its tag and
its fields, for every code, tag and field list that the length field can name. R220, R221: what the serial framing
puts between the marks comes back: the start mark, the stuffed kind, length, body and check, and the end mark,
received with no serial fault, are the frame's kind and body, for every kind and every body that the length byte can
name. -/
def Obligations.FramesComeBackAsTheyWereBuilt : Prop :=
  (∀ (s : State) (code hi lo : Byte) (fields : List Byte), fields.length ≤ 1017 →
     s.prst = false → s.lrst = false → s.link.ignoring = false → s.link.requests.length < 16 →
     let body := e2 (3 + fields.length) ++ code :: hi :: lo :: fields
     exec (.requestFrameArrival (body ++ checkBytes body)) s =
       .next { s with link := { s.link with
         sdo := List.replicate (fields.length + 7) 0x00#8
         requests := s.link.requests ++ [⟨code, hi ++ lo, fields⟩] } })
  ∧ (∀ (kind : Byte) (body : List Byte), body.length ≤ 255 →
       serialFrame ((serialBytes ⟨kind, body⟩).map fun b => (⟨b, false⟩ : RxChar)) = .ok ⟨kind, body⟩)

/-- R205: a READ shifts out the response at the head from its first byte, then 00h, and removes it when its last check
byte has been shifted out; a READ released earlier leaves it at the head. With the response queue empty, or LRST
asserted (R206), a READ shifts out 00h alone. A READ in progress at an assertion of LRST is ignored to its end, before
or after the release (R206): it removes no response, and what it shifts out is free (notes/assumptions/20). R201: RSP
follows the queue. That the level of LRST at the end of the READ decides, and that `ignoring` lasts to the next
transfer command, is the model's choice (notes/assumptions/6). -/
def Obligations.ReadTransferShiftsOutTheOldestResponse : Prop :=
  (∀ (s : State) (n : Nat), s.prst = false → s.link.ignoring = false →
     (∀ (r : Response) (rest : List Response), s.lrst = false → s.link.responses = r :: rest →
       exec (.readTransfer n) s = .next { s with link := { s.link with
         sdo := (r.bytes ++ List.replicate n 0x00#8).take n
         responses := if r.bytes.length ≤ n then rest else r :: rest } })
     ∧ (s.lrst = true ∨ s.link.responses = [] →
       exec (.readTransfer n) s = .next { s with link := { s.link with sdo := List.replicate n 0x00#8 } }))
  ∧ (∀ (s : State) (n : Nat), s.prst = false → s.link.ignoring = true →
     ∃ bytes : List Byte, bytes.length = n ∧ exec (.readTransfer n) s =
       .next { s with link := { s.link with ignoring := false, sdo := bytes }, free := s.free + n })
  ∧ (∀ s : State, s.prst = false → (s.rsp = true ↔ s.link.responses ≠ []))

/-! ### Starting and refusing a request (R203, R204, R61) -/

/-- R203: a request starts only when its frame is the oldest of the queue, no request is in execution and the response
queue holds fewer than 16 responses: otherwise the start of any request leaves the state as it is. That such a start
is a command with no effect is the model's choice (notes/assumptions/3). R204: a request whose fields do not decode is
refused with BAD_PARAM, without its owner and with no fields; a request code not in the table of R203 is refused with
UNKNOWN_REQUEST, whatever its fields. "Too few or too many bytes for the request": no field list that decodes stays
decodable with bytes after it, and a request that carries fields never decodes with none. -/
def Obligations.RequestsStartOnlyWhenTheyCanAndDecode : Prop :=
  (∀ (c : Instr) (code : Byte) (s : State), requestCode c = some code →
      (s.link.exec ≠ none ∨ 16 ≤ s.link.responses.length ∨ s.link.requests.head?.map (·.code) ≠ some code) →
      exec c s = .next s)
  ∧ (((∀ (c : Instr) (code : Byte) (s : State) (f : ReqFrame) (rest : List ReqFrame), requestCode c = some code →
        s.Ready code f rest → fieldsDecode c f.fields = false →
        exec c s = .next ((s.taken rest).answered f .badParam []))
     ∧ (∀ (s : State) (f : ReqFrame) (rest : List ReqFrame), s.Ready f.code f rest →
          (∀ c : Instr, requestCode c ≠ some f.code) →
          exec .unknownRequest s = .next ((s.taken rest).answered f .unknownRequest [])))
    ∧ ((∀ (c : Instr) (fields extra : List Byte), fieldsDecode c fields = true → extra ≠ [] →
           fieldsDecode c (fields ++ extra) = false)
       ∧ ∀ (c : Instr) (code : Byte), requestCode c = some code →
           (fieldsDecode c [] = true ↔ c = .status ∨ c = .changeNext ∨ c = .gateRestart)))

/-- A request that names a lane is refused with BAD_PARAM for a lane outside 1–12 and changes nothing (R47, R48, R57,
R70, R81, R83, R85, R198). R61: a request that names a visit checks its handle: BAD_PARAM for a slot above 63 or a
generation above 15, NOT_FOUND for a free slot, STALE_HANDLE for another generation; each refusal changes nothing. -/
def Obligations.LanesAndHandlesAreChecked : Prop :=
  (∀ (c : Instr) (code : Byte) (s : State) (f : ReqFrame) (rest : List ReqFrame) (lane : Byte) (more : List Byte),
     c ∈ [.laneMode, .laneSet, .laneAbort, .laneReset, .pointWrite, .pointRead, .laneFlagsClear, Instr.signSet] →
     requestCode c = some code → s.Ready code f rest → f.fields = lane :: more → (lane = 0 ∨ 12 < lane.toNat) →
     exec c s = .next ((s.taken rest).answered f .badParam []))
  ∧ (∀ (c : Instr) (code : Byte) (s : State) (f : ReqFrame) (rest : List ReqFrame) (v g : Byte) (more : List Byte),
       c ∈ [.visitQuery, .visitClose, .visitDecide, Instr.legDone] →
       requestCode c = some code → s.Ready code f rest → f.fields = v :: g :: more → fieldsDecode c f.fields = true →
       ((63 < v.toNat ∨ 15 < g.toNat) → exec c s = .next ((s.taken rest).answered f .badParam []))
       ∧ (∀ hv : v.toNat < 64, g.toNat < 16 → s.visit ⟨v.toNat, hv⟩ = none →
           exec c s = .next ((s.taken rest).answered f .notFound []))
       ∧ (∀ hv : v.toNat < 64, g.toNat < 16 → (s.visit ⟨v.toNat, hv⟩).isSome = true →
           (s.visits[v.toNat]).gen.val ≠ g.toNat → exec c s = .next ((s.taken rest).answered f .staleHandle [])))

/-! ### The requests of the Server Link (R209 to R212) -/

/-- R212: STATUS changes nothing but the two queues and answers the fields of R212's list as they stand when it is
taken. R209: CHANGE_NEXT on an empty change set is refused with NOT_FOUND; otherwise it removes the oldest entry and
answers the item's summary as the item stands, with the number of entries that remain. The places of the presence
bytes are the model's choice (notes/assumptions/10). R211: the two enable requests set or clear each cause named by a
1 of the mask and leave the others; the response carries the enables, the three conditions without them, and the
line's level, as they stand after the request; a mask with any of bits 3 to 7 set is refused with BAD_PARAM. The
enables are clear at power-on; GATE_RESTART and the link reset line keep them. The value 01h for an asserted line is
the model's choice (notes/assumptions/10). -/
def Obligations.StatusChangesAndAttentionAreReported : Prop :=
  ((∀ (s : State) (f : ReqFrame) (rest : List ReqFrame), s.Ready 0x01#8 f rest → f.fields = [] →
       exec .status s = .next ((s.taken rest).answered f .ok
         (e2 s.book.live ++ e2 s.book.noShow ++ e1 s.freeCount
           ++ eOpt (fun w : Window => e4 w.start ++ e1 s.ring.windows.length) s.ring.windows.head?
           ++ e4 s.time.minute ++ e2 s.time.phase ++ eFlag s.time.clockSet ++ e4 s.time.d ++ e1 s.time.f
           ++ e1 s.link.changes.length ++ e1 (s.link.changes.countP fun | .visit _ => true | .lane _ => false)
           ++ e1 (s.link.changes.countP fun | .visit _ => false | .lane _ => true)
           ++ eFlag s.link.attnVisit ++ eFlag s.link.attnLane ++ eFlag s.link.attnNoShow ++ eFlag s.attn
           ++ e1 rest.length ++ e1 s.link.responses.length ++ e2 s.link.errors ++ e1 s.link.errorKind.code
           ++ (List.finRange 12).flatMap fun n =>
               e1 (s.lane n).mode.code ++ e1 (s.laneState n).code ++ eFlag (s.lane n).closing
                 ++ eFlag (s.lane n).clearOverdue
                 ++ eOpt eHandle ((s.residentVisit n).map fun p => s.handle p.1)
                 ++ eOpt (fun x : VisitState => e1 x.code) ((s.residentVisit n).map fun p => p.2.state))))
    ∧ (∀ (s : State) (f : ReqFrame) (rest : List ReqFrame), s.Ready 0x02#8 f rest → f.fields = [] →
         (s.link.changes = [] → exec .changeNext s = .next ((s.taken rest).answered f .notFound []))
         ∧ ∀ (c : Change) (cs : List Change), s.link.changes = c :: cs →
             let summary : List Byte := match c with
               | .visit v => 0x00#8 :: match s.visit v with
                 | none => []
                 | some x => eHandle (s.handle v) ++ e1 (x.lane.val + 1) ++ e1 x.state.code
                     ++ eList e1 (standing x.reasons) ++ eFlag x.linkLoss ++ eFlag x.signFault
                     ++ eOpt (fun o : ReleaseOutcome => e1 o.code) x.outcome
                     ++ eOpt (fun o : DecisionSource => e1 o.code) x.source
                     ++ eOpt (fun o : RejectReason => e1 o.code) x.rejectReason ++ e1 x.legs.length ++ eFlag x.timeoutDue
               | .lane n => 0x01#8 :: (e1 (n.val + 1) ++ e1 (s.lane n).mode.code ++ e1 (s.laneState n).code
                   ++ eFlag (s.lane n).closing ++ eFlag (s.lane n).clearOverdue ++ eFlag (s.lane n).flags.overrun
                   ++ eFlag (s.lane n).flags.frameError ++ eFlag (s.lane n).flags.checkError
                   ++ eFlag (s.lane n).flags.stray ++ eOpt eHandle ((s.residentVisit n).map fun p => s.handle p.1)
                   ++ eOpt (fun q : VisitState => e1 q.code) ((s.residentVisit n).map fun p => p.2.state))
             exec .changeNext s =
               .next (({ s with link := { s.link with requests := rest, changes := cs } } : State).answered f .ok
                 (summary ++ e1 cs.length))))
  ∧ ((∀ (s : State) (f : ReqFrame) (rest : List ReqFrame) (mask : Byte) (on : Bool),
       s.Ready (if on then 0x03#8 else 0x04#8) f rest → f.fields = [mask] →
       let c : Instr := if on then .attnEnableSet else .attnEnableClear
       let pick (i : Nat) (old : Bool) : Bool := if mask.getLsbD i then on else old
       let t : State := { s with link := { s.link with
         requests := rest
         attnVisit := pick 0 s.link.attnVisit
         attnLane := pick 1 s.link.attnLane
         attnNoShow := pick 2 s.link.attnNoShow } }
       let visits := s.link.changes.any fun | .visit _ => true | .lane _ => false
       let lanes := s.link.changes.any fun | .visit _ => false | .lane _ => true
       let noShow := decide (0 < s.book.noShow)
       exec c s = .next (
         if 8 ≤ mask.toNat then (s.taken rest).answered f .badParam []
         else t.answered f .ok
           (eFlag t.link.attnVisit ++ eFlag t.link.attnLane ++ eFlag t.link.attnNoShow ++ eFlag visits ++ eFlag lanes
             ++ eFlag noShow
             ++ eFlag (t.link.attnVisit && visits || t.link.attnLane && lanes || t.link.attnNoShow && noShow))))
    ∧ (State.reset.link.attnVisit = false ∧ State.reset.link.attnLane = false ∧ State.reset.link.attnNoShow = false)
    ∧ (∀ (c : Instr) (u v : State), c ∈ [.gateRestart, .linkResetAssert true, .linkResetAssert false, .linkResetRelease] →
         exec c u = .next v → v.link.attnVisit = u.link.attnVisit ∧ v.link.attnLane = u.link.attnLane
           ∧ v.link.attnNoShow = u.link.attnNoShow))

/-- GATE_RESTART (R88, R218), taken whole: every lane is IDLE in MANUAL with its marks, timers, receiver and
identification cleared; every lane-resident visit is REJECTED with reason RESTART, lane 1 first, with the bookings of
its legs not done reverted and its reservations and bay places given back (R20, R83, R182); the change set holds the
visits rejected; every sign job is abandoned, and a display that is not OFF starts a job of every line, LANE n STAFFED
(R185, R197). The time base, the settings, every plan, quota and booked count, every block, group and bay but for what
is given back, and every visit that is not lane-resident keep their values. A TICKET's mirror has 10
entries: the model's choice (notes/assumptions/24). -/
def Obligations.GateRestartRejectsEveryResidentVisit : Prop :=
  ∀ (s : State) (f : ReqFrame) (rest : List ReqFrame), s.Ready 0x05#8 f rest → f.fields = [] →
    (∀ (n : Lane) (v : Fin 64), (s.lane n).resident = some v → (s.visit v).isSome = true) →
    (∀ (n m : Lane) (v : Fin 64), (s.lane n).resident = some v → (s.lane m).resident = some v → n = m) →
    let emptied : State := { s with link := { s.link with requests := rest, changes := [] } }
    let r : State := (List.finRange 12).foldl (fun u n =>
      match s.residentVisit n with
      | some (v, x) => u.rejection v x .restart
      | none => u) emptied
    ∃ t : State, exec .gateRestart s =
        .next (t.answered f .ok (e1 ((List.finRange 12).countP fun n => (s.lane n).resident.isSome)))
      ∧ t = { r with
          engine := { s.engine with waiting := Vector.replicate 12 none }
          lanes := Vector.ofFn fun n => { (s.lane n).afterReset with mode := .manual, closing := false }
          openWait := []
          grader := { s.grader with lanes := Vector.ofFn fun n => { s.grader.lanes[n] with pending := none } }
          yard := { r.yard with queue := [] }
          signs := t.signs }
      ∧ t.link = { s.link with
          requests := rest, changes := (List.finRange 12).filterMap fun n => (s.lane n).resident.map Change.visit }
      ∧ (∀ v : Fin 64, (∀ n : Lane, (s.lane n).resident ≠ some v) → t.visits[v] = s.visits[v])
      ∧ (∀ (n : Lane) (v : Fin 64) (x : Visit), s.Resident n v x →
          t.handle v = s.handle v ∧ t.visit v = some (x.rejected .restart))
      ∧ (∃ windows : List Window, t.ring = { s.ring with windows := windows }
          ∧ windows.map (fun w => { w with arrived := ⟨0, 0, 0, 0⟩ })
            = s.ring.windows.map fun w => { w with arrived := ⟨0, 0, 0, 0⟩ })
      ∧ (t.yard.groups = s.yard.groups
          ∧ (∀ b : Fin 48, t.yard.blocks[b] = { s.yard.blocks[b] with reserved := t.yard.blocks[b].reserved })
          ∧ ∀ b : Fin 4, t.yard.bays[b] = { s.yard.bays[b] with places := t.yard.bays[b].places })
      ∧ (∀ n : Lane,
          let g := (s.sign n).afterReset
          let lines : List Line := [Text.of "LANE", digits2 (n.val + 1), Text.of "STAFFED"]
            :: List.replicate (g.cls.count - 1) []
          t.sign n = if g.cls = .ticket ∨ g.mode = .off then g
            else g.sending (s.lane n).limits.signReply 1 lines none false false)

/-! ### The time base (R213 to R216) -/

/-- R214, R67, R69, R192: the tick event reaches the dwell timer and the refresh timer of every lane and the reply timer
of every sign, and the tick phase and gate minute; R213: the fine position advances, the pending D and F come into
force and the next tick begins. Nothing else changes. R67: a one-shot dwell timer of a lane in AUTO, loaded with N,
expires at the Nth tick event after the load and not before, and is then stopped. R213: in every 16 ticks, F ticks are
one period longer, and 16 ticks last 16D + F reference periods. That TICK_EVENT ends the tick in progress from any
reference count is the model's choice (notes/assumptions/1), and so is that an expiry is counted (`dwell.due`,
`refreshDue`, `replyDue`, `minuteDue`) and taken by a command of its own (notes/assumptions/8). -/
def Obligations.TicksReachEveryTimerAndLastSixteenDPlusF : Prop :=
  ((∀ s : State, s.prst = false → ∃ t : State, exec .tickEvent s = .next t
       ∧ t = { s with lanes := t.lanes, signs := t.signs, time := t.time }
       ∧ t.time = { s.time with
           refCount := 0
           fine := (s.time.fine + 1) % 16
           d := s.time.pendD
           f := s.time.pendF
           phase := if s.time.phase < 599 then s.time.phase + 1 else 0
           minute := if 599 ≤ s.time.phase ∧ s.time.minute < 4294967295 then s.time.minute + 1 else s.time.minute
           minuteDue := s.time.minuteDue || decide (599 ≤ s.time.phase ∧ s.time.minute < 4294967295) }
       ∧ (∀ n : Lane, ∃ d : Dwell, t.lane n = { s.lane n with
             dwell := d
             refresh := if (s.lane n).refresh ≤ 1 then (s.lane n).limits.refresh else (s.lane n).refresh - 1
             refreshDue := if (s.lane n).refresh ≤ 1 then (s.lane n).refreshDue + 1 else (s.lane n).refreshDue }
           ∧ ((s.lane n).mode ≠ .auto ∨ (s.lane n).dwell.form = .stopped → d = (s.lane n).dwell)
           ∧ ((s.lane n).mode = .auto → (s.lane n).dwell.form ≠ .stopped → 1 < (s.lane n).dwell.count →
               d = { (s.lane n).dwell with count := (s.lane n).dwell.count - 1 })
           ∧ ((s.lane n).mode = .auto → (s.lane n).dwell.form = .oneShot → (s.lane n).dwell.count ≤ 1 →
               d = { (s.lane n).dwell with form := .stopped, count := 0, due := (s.lane n).dwell.due + 1 })
           ∧ ((s.lane n).mode = .auto → (s.lane n).dwell.form = .repeating → (s.lane n).dwell.count ≤ 1 →
               d = { (s.lane n).dwell with
                 count := (s.lane n).limits.get (s.lane n).dwell.limit, due := (s.lane n).dwell.due + 1 }))
       ∧ ∀ n : Lane, t.sign n = { s.sign n with
           reply := (s.sign n).reply - 1
           replyDue := (s.sign n).replyDue || decide ((s.sign n).reply = 1) })
    ∧ (∀ (u : LaneUnit) (N : Nat), u.mode = .auto → u.dwell.form = .oneShot → u.dwell.count = N → 1 ≤ N →
        u.dwell.due = 0 →
         (∀ j < N, (LaneUnit.tick^[j] u).dwell.due = 0 ∧ (LaneUnit.tick^[j] u).dwell.form = .oneShot)
         ∧ (LaneUnit.tick^[N] u).dwell.due = 1 ∧ (LaneUnit.tick^[N] u).dwell.form = .stopped))
  ∧ (∀ t : TimeBase, t.f ≤ 15 →
      ((List.range 16).map fun i => ({ t with fine := i } : TimeBase).tickLength).sum = 16 * t.d + t.f
      ∧ ((List.range 16).countP fun i => ({ t with fine := i } : TimeBase).tickLength == t.d + 1) = t.f)

/-- R215: TICK_SET refuses a D outside 1,000,000–2,000,000 or an F above 15 with BAD_PARAM; otherwise each given value
replaces its pending value, the tick in progress keeps its length, and the response carries D and F in force and
pending. The pending values come into force at the next tick boundary. GATE_RESTART and the link reset line keep them
all. -/
def Obligations.TickSetReplacesThePendingValues : Prop :=
  (∀ (s : State) (f : ReqFrame) (rest : List ReqFrame) (d ff : Option Nat), s.Ready 0x09#8 f rest →
     (∀ n ∈ d, n < 4294967296) → (∀ n ∈ ff, n < 256) → f.fields = eOpt e4 d ++ eOpt e1 ff →
     let ok := (∀ n ∈ d, 1000000 ≤ n ∧ n ≤ 2000000) ∧ ∀ n ∈ ff, n ≤ 15
     let t : State := { s with
       link := { s.link with requests := rest }
       time := { s.time with pendD := d.getD s.time.pendD, pendF := ff.getD s.time.pendF } }
     (ok → exec .tickSet s =
         .next (t.answered f .ok (e4 s.time.d ++ e1 s.time.f ++ e4 t.time.pendD ++ e1 t.time.pendF))
       ∧ ∃ u, exec .tickEvent t = .next u ∧ u.time.d = t.time.pendD ∧ u.time.f = t.time.pendF)
     ∧ (¬ ok → exec .tickSet s = .next ((s.taken rest).answered f .badParam [])))
  ∧ (∀ (c : Instr) (u v : State), c ∈ [.gateRestart, .linkResetAssert true, .linkResetAssert false, .linkResetRelease] →
       exec c u = .next v → v.time = u.time)

/-- R216: TIME_SET refuses a minute below the current one with TIME_BACKWARD; otherwise it sets the gate minute and
the clock-set flag and clears the tick phase, and its execution ends at once when no retirement is due, with the
minute and 0 windows retired; a forward move that makes the oldest window due starts the catch-up of R31. One
retirement of a catch-up is the whole retirement of the oldest window; when the next window is not due, the execution
ends and its response carries the minute set and the number of windows retired. The retirement test as a command of
its own is the model's choice (notes/assumptions/8), and so is the layout of the answer (notes/assumptions/10). -/
def Obligations.TimeSetAndItsCatchUp : Prop :=
  (∀ (s : State) (f : ReqFrame) (rest : List ReqFrame) (m : Nat), s.Ready 0x08#8 f rest → m < 4294967296 →
     f.fields = e4 m →
     let t : State := { s with
       link := { s.link with requests := rest }
       time := { s.time with minute := m, phase := 0, clockSet := true } }
     (m < s.time.minute → exec .timeSet s = .next ((s.taken rest).answered f .timeBackward []))
     ∧ (s.time.minute ≤ m → (m = s.time.minute ∨ ¬ s.ring.OldestDue m) →
         exec .timeSet s = .next (t.answered f .ok (e4 m ++ e4 0)))
     ∧ (s.time.minute < m → s.ring.OldestDue m →
         exec .timeSet s = .next
           { t with link := { t.link with exec := some ⟨f.code, f.tag, false, .catchUp m 0⟩ } }))
  ∧ (∀ (s : State) (e : Execution) (m k : Nat) (w : Window) (newer : List Window) (newest : Window),
       s.prst = false → s.link.exec = some e → e.work = .catchUp m k → s.ring.windows = w :: newer →
       s.ring.windows.getLast? = some newest → s.ring.OldestDue s.time.minute →
       let t := s.retired w newer newest.start
       (t.ring.OldestDue s.time.minute → exec .catchUpRetirement s =
           .next { t with link := { t.link with exec := some { e with work := .catchUp m (k + 1) } } })
       ∧ (¬ t.ring.OldestDue s.time.minute → exec .catchUpRetirement s =
           .next { t with link := { t.link with
             exec := none
             responses := if e.discard then t.link.responses
               else t.link.responses ++ [⟨e.code, e.tag, .ok, e4 m ++ e4 (k + 1)⟩] } }))

/-! ### Retirement (R22, R29 to R31) -/

/-- R29, R30: a minute event that was given retires windows oldest first, each whole, while the oldest is due, and
leaves a ring whose oldest window is not due; a minute event taken when none was given changes nothing. R216: during a
TIME_SET catch-up a minute event is taken with nothing retired, since the windows it makes due retire in the catch-up's
series (notes/assumptions/8). A minute event that is not due is a command with no effect: the model's choice
(notes/assumptions/4). -/
def Obligations.MinuteEventRetiresEveryDueWindow : Prop :=
  ∀ s : State, s.prst = false →
    (s.time.minuteDue = false → exec .minuteEvent s = .next s)
    ∧ (∀ e m k, s.time.minuteDue = true → s.link.exec = some e → e.work = .catchUp m k →
        exec .minuteEvent s = .next { s with time := { s.time with minuteDue := false } })
    ∧ (s.time.minuteDue = true → s.catchingUp = false → s.ring.Kept →
        ∃ (k : Nat) (run : Nat → State), exec .minuteEvent s = .next (run k)
          ∧ run 0 = { s with time := { s.time with minuteDue := false } }
          ∧ (∀ i < k, (run i).ring.OldestDue s.time.minute ∧ ∃ (w newest : Window) (newer : List Window),
              (run i).ring.windows = w :: newer ∧ (run i).ring.windows.getLast? = some newest
              ∧ run (i + 1) = (run i).retired w newer newest.start)
          ∧ ¬ (run k).ring.OldestDue s.time.minute)

/-! ### The Window Ring's requests (R28, R37 to R40) -/

/-- R28: WINDOW_PLAN is checked in the rule's order; when none of the checks applies the ring is rebuilt with 96
entries, a length L apart from S0, each with the default quotas in force and nothing booked or arrived. -/
def Obligations.WindowPlanLaysNinetySixWindows : Prop :=
  ∀ (s : State) (f : ReqFrame) (rest : List ReqFrame) (s0 L E G R : Nat), s.Ready 0x18#8 f rest →
    s0 < 4294967296 → L < 256 → E < 256 → G < 256 → R < 256 → f.fields = e4 s0 ++ e1 L ++ e1 E ++ e1 G ++ e1 R →
    exec .windowPlan s = .next (
      if L ∉ [15, 20, 30, 60] ∨ 120 < E ∨ 120 < G ∨ 8 < R then (s.taken rest).answered f .badParam []
      else if s.time.clockSet = false then (s.taken rest).answered f .clockNotSet []
      else if 0 < s.book.live then (s.taken rest).answered f .notEmpty []
      else if s0 + L + G ≤ s.time.minute ∨ 4294967295 < s0 + 95 * L then (s.taken rest).answered f .badParam []
      else
        ({ s with
          link := { s.link with requests := rest }
          ring := { s.ring with
            length := some L
            early := E
            grace := G
            reach := R
            windows := (List.range 96).map fun i =>
              ⟨s0 + i * L, s.ring.defaults, ⟨0, 0, 0, 0⟩, ⟨0, 0, 0, 0⟩⟩ } } : State).answered f .ok [])

/-- R37, R39: WINDOW_SET replaces the given quotas of the window its start names and moves no booking; DEFAULT_QUOTA
replaces the four default quotas and leaves the windows of the ring. Quotas above 999 are refused with BAD_PARAM, and
then a start that names no window with NO_SUCH_WINDOW. R40: WINDOW_QUERY changes nothing the manual names. With a
start it answers the window's start, end and retirement minute and its counts; with no start it answers the plan; a
start that names none, and an empty ring, are refused with NO_SUCH_WINDOW. A sum above the largest gate minute has no
stated encoding (notes/assumptions/20), so the window clause is about sums that have one. The layout of the answers is
the model's choice (notes/assumptions/10). -/
def Obligations.QuotaRequestsReplaceQuotasAndQueriesReportThem : Prop :=
  (∀ (s : State) (f : ReqFrame) (rest : List ReqFrame),
     (∀ (start : Nat) (a b c d : Option Nat), s.Ready 0x19#8 f rest → start < 4294967296 →
       (∀ q ∈ [a, b, c, d], ∀ n ∈ q, n < 65536) →
       f.fields = e4 start ++ eOpt e2 a ++ eOpt e2 b ++ eOpt e2 c ++ eOpt e2 d →
       exec .windowSet s = .next (
         if ∃ q ∈ [a, b, c, d], ∃ n ∈ q, 999 < n then (s.taken rest).answered f .badParam []
         else if ∀ w ∈ s.ring.windows, w.start ≠ start then (s.taken rest).answered f .noSuchWindow []
         else
           ({ s with
             link := { s.link with requests := rest }
             ring := { s.ring with windows := s.ring.windows.map fun w =>
               if w.start = start then
                 { w with quota := ⟨a.getD w.quota.exportFull, b.getD w.quota.emptyReturn,
                     c.getD w.quota.importPickup, d.getD w.quota.emptyPickup⟩ }
               else w } } : State).answered f .ok []))
     ∧ ∀ a b c d : Nat, s.Ready 0x1B#8 f rest → (∀ n ∈ [a, b, c, d], n < 65536) →
       f.fields = e2 a ++ e2 b ++ e2 c ++ e2 d →
       exec .defaultQuota s = .next (
         if ∃ n ∈ [a, b, c, d], 999 < n then (s.taken rest).answered f .badParam []
         else
           ({ s with
             link := { s.link with requests := rest }
             ring := { s.ring with defaults := ⟨a, b, c, d⟩ } } : State).answered f .ok []))
  ∧ (∀ (s : State) (f : ReqFrame) (rest : List ReqFrame), s.Ready 0x1C#8 f rest →
       (∀ start < 4294967296, f.fields = 0x01#8 :: e4 start →
         (∀ w ∈ s.ring.windows, w.start ≠ start) →
           exec .windowQuery s = .next ((s.taken rest).answered f .noSuchWindow []))
       ∧ (∀ w : Window, s.ring.windows.find? (·.start == w.start) = some w → f.fields = 0x01#8 :: e4 w.start →
           w.start + s.ring.span + s.ring.grace ≤ 4294967295 →
           exec .windowQuery s = .next (({ s.taken rest with free := s.free + 8 } : State).answered f .ok
             (e4 w.start ++ e4 (w.start + s.ring.span) ++ e4 (w.start + s.ring.span + s.ring.grace)
               ++ e2 w.quota.exportFull ++ e2 w.booked.exportFull ++ e2 w.arrived.exportFull
               ++ e2 w.quota.emptyReturn ++ e2 w.booked.emptyReturn ++ e2 w.arrived.emptyReturn
               ++ e2 w.quota.importPickup ++ e2 w.booked.importPickup ++ e2 w.arrived.importPickup
               ++ e2 w.quota.emptyPickup ++ e2 w.booked.emptyPickup ++ e2 w.arrived.emptyPickup)))
       ∧ (f.fields = [0x00#8] → s.ring.windows = [] →
           exec .windowQuery s = .next ((s.taken rest).answered f .noSuchWindow []))
       ∧ ∀ first newest : Window, f.fields = [0x00#8] → s.ring.windows.head? = some first →
           s.ring.windows.getLast? = some newest →
           exec .windowQuery s = .next ((s.taken rest).answered f .ok
             (e1 s.ring.span ++ e4 first.start ++ e4 newest.start ++ e1 s.ring.windows.length ++ e1 s.ring.early
               ++ e1 s.ring.grace ++ e1 s.ring.reach ++ e2 s.ring.defaults.exportFull ++ e2 s.ring.defaults.emptyReturn
               ++ e2 s.ring.defaults.importPickup ++ e2 s.ring.defaults.emptyPickup ++ e4 s.time.minute)))

/-- R38: WINDOW_SET_ALLOWANCES replaces the given E, G and R; a lowered G is followed at once by a retirement test,
which retires windows oldest first until the oldest is not due; otherwise nothing retires. -/
def Obligations.AllowancesAreReplacedAndALoweredGraceRetires : Prop :=
  ∀ (s : State) (f : ReqFrame) (rest : List ReqFrame) (E G R : Option Nat), s.Ready 0x1A#8 f rest →
    (∀ q ∈ [E, G, R], ∀ n ∈ q, n < 256) → f.fields = eOpt e1 E ++ eOpt e1 G ++ eOpt e1 R →
    let bad := (∃ n ∈ E, 120 < n) ∨ (∃ n ∈ G, 120 < n) ∨ ∃ n ∈ R, 8 < n
    let t : State := { s with
      link := { s.link with requests := rest }
      ring := { s.ring with
        early := E.getD s.ring.early, grace := G.getD s.ring.grace, reach := R.getD s.ring.reach } }
    (bad → exec .windowSetAllowances s = .next ((s.taken rest).answered f .badParam []))
    ∧ (¬ bad → s.ring.grace ≤ t.ring.grace → exec .windowSetAllowances s = .next (t.answered f .ok []))
    ∧ (¬ bad → t.ring.grace < s.ring.grace → s.ring.Kept →
        ∃ (k : Nat) (run : Nat → State), exec .windowSetAllowances s = .next ((run k).answered f .ok []) ∧ run 0 = t
          ∧ (∀ i < k, (run i).ring.OldestDue s.time.minute ∧ ∃ (w newest : Window) (newer : List Window),
              (run i).ring.windows = w :: newer ∧ (run i).ring.windows.getLast? = some newest
              ∧ run (i + 1) = (run i).retired w newer newest.start)
          ∧ ¬ (run k).ring.OldestDue s.time.minute)

/-! ### The Booking Book (R1 to R22) -/

/-- R203, R219: each of the six booking requests, laid out by R219 in the order its rule names its fields, removes its
frame from the queue and is in execution as a requester of the index engine; no response is given before its
completion. Texts are normalised on arrival; `create` and `amend` carry every optional field with its presence byte.
The layout of the fields, where R219 leaves one open, is the model's choice (notes/assumptions/10). R9: the free index
engine grants the first waiting requester in the cyclic order SLK, lane 1, …, lane 12, searched from the one after the
last granted; it is then busy with that requester's operation. R124: the free grading engine takes the scan of the
first non-empty slot in the cyclic order from the lane after the lane last served. With an engine busy, or with
nothing waiting for it, nothing changes; and nothing else changes. A grant that is not due is a command with no
effect: the model's choice (notes/assumptions/4). -/
def Obligations.BookingRequestsWaitAndEnginesTakeTheNext : Prop :=
  (∀ (s : State) (f : ReqFrame) (rest : List ReqFrame) (ref : List Byte), ref.length < 256 →
      let starts (c : Instr) (req : BookReq) : Prop := exec c s =
        .next { s with link := { s.link with requests := rest, exec := some ⟨f.code, f.tag, false, .booking req⟩ } }
      (s.Ready 0x12#8 f rest → f.fields = eRaw ref → starts .bookCancel (.cancel (normalise ref)))
      ∧ (s.Ready 0x13#8 f rest → f.fields = eRaw ref → starts .bookRetire (.retire (normalise ref)))
      ∧ (s.Ready 0x14#8 f rest → f.fields = eRaw ref → starts .bookQuery (.query (normalise ref)))
      ∧ (∀ (filter : Option BookingState) (start : Nat), s.Ready 0x15#8 f rest → start < 65536 →
          f.fields = e1 ((filter.map BookingState.code).getD 4) ++ e2 start → starts .bookScan (.scan filter start))
      ∧ (∀ (kind : Kind) (window teu : Nat) (container plate : Option (List Byte)) (seals : Option (List (List Byte)))
            (declared : Option Declared) (group block : Option Nat),
          s.Ready 0x10#8 f rest → window < 4294967296 → teu < 256 → (∀ n ∈ group, n < 256) → (∀ n ∈ block, n < 256) →
          (∀ t ∈ container, t.length < 256) → (∀ t ∈ plate, t.length < 256) →
          (∀ l ∈ seals, l.length ≤ 3 ∧ ∀ t ∈ l, t.length < 256) →
          f.fields = eRaw ref ++ e1 kind.code ++ e4 window ++ e1 teu ++ eOpt eRaw container ++ eOpt eRaw plate
            ++ eOpt (eList eRaw) seals ++ eOpt (fun d : Declared => e1 d.code) declared ++ eOpt e1 group
                ++ eOpt e1 block →
          starts .bookCreate (.create ⟨normalise ref, kind, window, teu, container.map normalise, plate.map normalise,
            seals.map (·.map normalise), declared, group, block⟩))
      ∧ ∀ (window : Option Nat) (plate : Option (List Byte)) (seals : Option (List (List Byte)))
            (declared : Option Declared) (group block teu : Option Nat) (container : Option (List Byte)),
          s.Ready 0x11#8 f rest → (∀ n ∈ window, n < 4294967296) → (∀ n ∈ group, n < 256) → (∀ n ∈ block, n < 256) →
          (∀ n ∈ teu, n < 256) → (∀ t ∈ container, t.length < 256) → (∀ t ∈ plate, t.length < 256) →
          (∀ l ∈ seals, l.length ≤ 3 ∧ ∀ t ∈ l, t.length < 256) →
          let starts' (plateByte : List Byte) (change : PlateChange) : Prop :=
            f.fields = eRaw ref ++ eOpt e4 window ++ plateByte ++ eOpt (eList eRaw) seals
              ++ eOpt (fun d : Declared => e1 d.code) declared ++ eOpt e1 group ++ eOpt e1 block ++ eOpt e1 teu
              ++ eOpt eRaw container →
            starts .bookAmend (.amend ⟨normalise ref, window, change, seals.map (·.map normalise), declared, group, block,
              teu, container.map normalise⟩)
          starts' (eOpt eRaw plate) ((plate.map (PlateChange.value ∘ normalise)).getD .unchanged)
            ∧ starts' [0x02#8] .remove)
  ∧ ((∀ s : State, s.prst = false →
       let asks (r : Fin 13) : Prop := (r = 0 ∧ ∃ e req, s.link.exec = some e ∧ e.work = .booking req)
         ∨ ∃ n : Lane, r = n.succ ∧ s.engine.waiting[n] ≠ none
       let first (r : Fin 13) : Prop := ∃ k : Fin 13, r = s.engine.lastGranted + 1 + k ∧ asks r
         ∧ ∀ j : Fin 13, j < k → ¬ asks (s.engine.lastGranted + 1 + j)
       (s.engine.inFlight ≠ none → exec .indexEngineGrant s = .next s)
       ∧ ((∀ r, ¬ asks r) → exec .indexEngineGrant s = .next s)
       ∧ (s.engine.inFlight = none → first 0 → exec .indexEngineGrant s =
           .next { s with engine := { s.engine with lastGranted := 0, inFlight := some .host } })
       ∧ ∀ (n : Lane) (op : Ident), s.engine.inFlight = none → first n.succ → s.engine.waiting[n] = some op →
           exec .indexEngineGrant s =
             .next { s with engine := ⟨n.succ, some (.lane n op), s.engine.waiting.set n none⟩ })
    ∧ (∀ s : State, s.prst = false →
         (s.grader.inFlight ≠ none → exec .gradingEngineTake s = .next s)
         ∧ ((∀ n : Lane, s.grader.lanes[n].pending = none) → exec .gradingEngineTake s = .next s)
         ∧ ∀ (k : Fin 12) (c : Scan), s.grader.inFlight = none →
             let n : Lane := s.grader.lastServed + 1 + k
             s.grader.lanes[n].pending = some c →
             (∀ j : Fin 12, j < k → s.grader.lanes[s.grader.lastServed + 1 + j].pending = none) →
             exec .gradingEngineTake s = .next { s with grader := { s.grader with
               inFlight := some (n, c)
               lastServed := n
               lanes := s.grader.lanes.set n { s.grader.lanes[n] with pending := none } } }))

/-- R12, R7: BOOK_CREATE at its completion is checked in the rule's order; when none of the checks applies, the lowest
free record slot becomes live with the record, in BOOKED with its window and no visit, its reference is entered in
the booking index, and the live count and the window's booked count rise by 1. The response carries the record slot. -/
def Obligations.BookCreateMakesTheLowestFreeSlotLive : Prop :=
  ∀ (s : State) (e : Execution) (r : CreateReq), s.Completing e (.create r) →
    let b : Booking := ⟨r.ref, r.kind, .booked, some r.window, r.teu, r.container, r.plate, r.seals.getD [], r.declared,
      r.group, r.block, none⟩
    let answer (u : State) (code : Result) (fields : List Byte) : Prop :=
      exec .indexOperationComplete s = .next (u.completed e code fields)
    (b.wellFormed = false → answer s .badParam [])
    ∧ (b.wellFormed = true → (∃ c ∈ r.container, containerCheck c = .badCheckDigit) → answer s .badCheckDigit [])
    ∧ (b.wellFormed = true → (∀ c ∈ r.container, containerCheck c ≠ .badCheckDigit) →
        ((s.book.lookup r.ref).isSome = true → answer s .exists_ [])
        ∧ (s.book.lookup r.ref = none →
            ((∀ w ∈ s.ring.windows, w.start ≠ r.window) → answer s .noSuchWindow [])
            ∧ ∀ w : Window, s.ring.windows.find? (·.start == r.window) = some w →
                (w.quota.get r.kind ≤ w.booked.get r.kind → answer s .windowFull [])
                ∧ (w.booked.get r.kind < w.quota.get r.kind → 8192 ≤ s.book.live → answer s .tableFull [])
                ∧ (w.booked.get r.kind < w.quota.get r.kind → s.book.live < 8192 → tableWf s.book.records →
                    ∃ slot : Nat,
                      tableFind slot s.book.records = none
                      ∧ (∀ k < slot, tableFind k s.book.records ≠ none)
                      ∧ tableFind slot (tablePut slot b s.book.records) = some b
                      ∧ answer { s with
                          book := { s.book with
                            records := tablePut slot b s.book.records, index := indexInsert s.book.index r.ref slot
                            live := s.book.live + 1 }
                          ring := { s.ring with windows := s.ring.windows.map fun w =>
                            if w.start = r.window then
                              { w with booked := w.booked.put r.kind (w.booked.get r.kind + 1) } else w } }
                        .ok (e2 slot))))

/-- R6, R7: after a BOOK_CREATE that is taken, a lookup of the new reference gives the new record's slot, and a lookup
of every other reference gives what it gave, in every book that R6 allows: its index has an empty bucket, and each
entry points to a live record of another reference and is reached by a lookup of that reference. -/
def Obligations.CreatedBookingIsFoundByItsReference : Prop :=
  ∀ (b : Book) (slot : Nat) (r : Booking), tableFind slot b.records = none →
    (∃ n < 16384, tableFind n b.index = none) →
    (∀ n k, tableFind n b.index = some k →
      k ≠ slot ∧ ∃ q, tableFind k b.records = some q ∧ q.ref ≠ r.ref ∧ b.lookup q.ref = some k) →
    (b.insert slot r).lookup r.ref = some slot
    ∧ ∀ ref : Text, ref ≠ r.ref → (b.insert slot r).lookup ref = b.lookup ref

/-- R13: BOOK_AMEND is refused in the rule's order for its reference and for the state of the booking found, and
otherwise the record with every given value applied replaces it in its slot; a window that changes moves the booking
between booked counts, and a window given equal to the current one moves none and meets no quota. -/
def Obligations.BookAmendReplacesEveryGivenValue : Prop :=
  ∀ (s : State) (e : Execution) (r : AmendReq) (slot : Nat) (b : Booking), s.Completing e (.amend r) →
    let answer (u : State) (code : Result) : Prop := exec .indexOperationComplete s = .next (u.completed e code [])
    let new : Booking := { b with
      window := r.window.or b.window
      plate := match r.plate with | .unchanged => b.plate | .remove => none | .value p => some p
      seals := r.seals.getD b.seals
      declared := r.declared.or b.declared
      group := r.group.or b.group
      block := r.block.or b.block
      teu := r.teu.getD b.teu
      container := r.container.or b.container }
    (r.ref.length ≠ 8 → answer s .badParam)
    ∧ (r.ref.length = 8 → s.book.lookup r.ref = none → answer s .notFound)
    ∧ (r.ref.length = 8 → s.book.lookup r.ref = some slot → tableFind slot s.book.records = some b →
        (b.state = .inLane → answer s .inUse)
        ∧ (b.state = .admitted ∨ b.state = .noShow → answer s .wrongState)
        ∧ (b.state = .booked → new.wellFormed = false → answer s .badParam)
        ∧ (b.state = .booked → new.wellFormed = true →
            ((∃ c ∈ r.container, containerCheck c = .badCheckDigit) → answer s .badCheckDigit)
            ∧ ((∀ c ∈ r.container, containerCheck c ≠ .badCheckDigit) →
                (r.window = none ∨ (r.window = b.window ∧ ∃ w ∈ s.ring.windows, some w.start = b.window) →
                  answer { s with book := { s.book with records := tablePut slot new s.book.records } } .ok)
                ∧ ∀ start old : Nat, r.window = some start → b.window = some old → start ≠ old →
                    ((∀ w ∈ s.ring.windows, w.start ≠ start) → answer s .noSuchWindow)
                    ∧ ∀ w : Window, s.ring.windows.find? (·.start == start) = some w →
                        (w.quota.get b.kind ≤ w.booked.get b.kind → answer s .windowFull)
                        ∧ (w.booked.get b.kind < w.quota.get b.kind → answer { s with
                            book := { s.book with records := tablePut slot new s.book.records }
                            ring := { s.ring with windows := s.ring.windows.map fun w =>
                              if w.start = old then
                                { w with booked := w.booked.put b.kind (w.booked.get b.kind - 1) }
                              else if w.start = start then
                                { w with booked := w.booked.put b.kind (w.booked.get b.kind + 1) }
                              else w } } .ok))))

/-- R14, R15: BOOK_CANCEL frees a BOOKED or NO_SHOW booking and BOOK_RETIRE a NO_SHOW booking or an ADMITTED one with
neither window nor visit: the record slot becomes free, the live count falls by 1, a BOOKED booking leaves its
window's booked count and a NO_SHOW booking the NO_SHOW count. Every other booking, and a reference that names none,
is refused in the order of the rules and nothing changes. -/
def Obligations.CancelAndRetireFreeTheRecordSlot : Prop :=
  ∀ (s : State) (e : Execution) (ref : Text) (slot : Nat) (b : Booking) (retire : Bool),
    s.Completing e (if retire then .retire ref else .cancel ref) →
    let answer (u : State) (code : Result) : Prop := exec .indexOperationComplete s = .next (u.completed e code [])
    (ref.length ≠ 8 → answer s .badParam)
    ∧ (ref.length = 8 → s.book.lookup ref = none → answer s .notFound)
    ∧ (ref.length = 8 → s.book.lookup ref = some slot → tableFind slot s.book.records = some b →
        let freed (noShow : Nat) (ring : Ring) : State := { s with
          book := ⟨tableDel slot s.book.records, indexDelete s.book slot, s.book.live - 1, noShow⟩
          ring := ring }
        (b.state = .inLane → answer s (if retire then .wrongState else .inUse))
        ∧ (b.state = .booked → retire = true → answer s .wrongState)
        ∧ (∀ w : Nat, b.state = .booked → retire = false → b.window = some w →
            answer (freed s.book.noShow { s.ring with windows := s.ring.windows.map fun x =>
              if x.start = w then { x with booked := x.booked.put b.kind (x.booked.get b.kind - 1) } else x }) .ok)
        ∧ (b.state = .noShow → answer (freed (s.book.noShow - 1) s.ring) .ok)
        ∧ (b.state = .admitted → retire = false → answer s .wrongState)
        ∧ (b.state = .admitted → retire = true → b.window ≠ none → answer s .windowOpen)
        ∧ (b.state = .admitted → retire = true → b.window = none → b.visit ≠ none → answer s .inUse)
        ∧ (b.state = .admitted → retire = true → b.window = none → b.visit = none →
            answer (freed s.book.noShow s.ring) .ok))

/-- R16, R17: BOOK_QUERY and BOOK_SCAN change no record. A query answers the slot and the record of its reference; a
scan answers the first live slot from its start index on whose state matches the filter, its record, and the continue
index one above the slot, and NOT_FOUND when there is none; a start index above 8191 is refused with BAD_PARAM. The
layout of a record is the model's choice (notes/assumptions/10). -/
def Obligations.QueryAndScanReportARecord : Prop :=
  ∀ (s : State) (e : Execution) (slot : Nat) (b : Booking),
    let answer (code : Result) (fields : List Byte) : Prop :=
      exec .indexOperationComplete s = .next (s.completed e code fields)
    let record : List Byte := eText b.ref ++ e1 b.kind.code ++ e1 b.state.code ++ eOpt e4 b.window ++ e1 b.teu
      ++ eOpt eText b.container ++ eOpt eText b.plate ++ 0x01#8 :: eList eText b.seals
      ++ eOpt (fun d : Declared => e1 d.code) b.declared ++ eOpt e1 b.group ++ eOpt e1 b.block ++ eOpt eHandle b.visit
    (∀ ref : Text, s.Completing e (.query ref) →
      (ref.length ≠ 8 → answer .badParam [])
      ∧ (ref.length = 8 → s.book.lookup ref = none → answer .notFound [])
      ∧ (ref.length = 8 → s.book.lookup ref = some slot → tableFind slot s.book.records = some b →
          answer .ok (e2 slot ++ record)))
    ∧ ∀ (filter : Option BookingState) (start : Nat), s.Completing e (.scan filter start) →
      (8191 < start → answer .badParam [])
      ∧ (start ≤ 8191 → tableWf s.book.records →
          (∀ k c, start ≤ k → tableFind k s.book.records = some c → ∃ st, filter = some st ∧ st ≠ c.state) →
          answer .notFound [])
      ∧ (start ≤ slot → start ≤ 8191 → tableWf s.book.records → tableFind slot s.book.records = some b →
          (∀ st ∈ filter, st = b.state) →
          (∀ k c, start ≤ k → k < slot → tableFind k s.book.records = some c → ∃ st, filter = some st ∧ st ≠ c.state) →
          answer .ok (e2 slot ++ record ++ e2 (slot + 1)))

/-- R18 to R21: the admission, the revert and the visit release of a leg's booking. Where the leg's slot is free or
holds another reference, none of them changes anything (R18). Otherwise each acts where the booking is the named
visit's (an admission also takes a NO_SHOW booking), and changes nothing in any other case. That an update is reported
"not applied" shows in the model in nothing but the unchanged state: no rule has a block act on the report. -/
def Obligations.RecordUpdatesActOnTheVisitsOwnBooking : Prop :=
  (∀ (s : State) (l : Leg) (h : Handle),
     (∀ k r, l.slot = some k → tableFind k s.book.records = some r → r.ref ≠ l.ref) →
     s.admitBooking l h = s ∧ s.revertBooking l h = s ∧ s.releaseBooking l h = s)
  ∧ ∀ (s : State) (l : Leg) (h : Handle) (k : Nat) (r : Booking),
    l.slot = some k → tableFind k s.book.records = some r → r.ref = l.ref →
    let put (b : Booking) (noShow : Nat) (ring : Ring) : State :=
      { s with book := { s.book with records := tablePut k b s.book.records, noShow := noShow }, ring := ring }
    let count (g : Nat → Nat) (w : Window) : Window :=
      if r.window = some w.start then { w with arrived := w.arrived.put r.kind (g (w.arrived.get r.kind)) } else w
    let arrived (g : Nat → Nat) : Ring := { s.ring with windows := s.ring.windows.map (count g) }
    (r.state = .inLane → r.visit = some h →
      s.admitBooking l h = put { r with state := .admitted } s.book.noShow (arrived (· + 1)))
    ∧ (r.state = .noShow →
      s.admitBooking l h = put { r with state := .admitted, visit := some h } (s.book.noShow - 1) s.ring)
    ∧ (r.state ≠ .noShow → (r.state ≠ .inLane ∨ r.visit ≠ some h) → s.admitBooking l h = s)
    ∧ (r.visit = some h → (r.state = .inLane ∨ r.state = .admitted) → r.window ≠ none →
      s.revertBooking l h = put { r with state := .booked, visit := none } s.book.noShow
        (if r.state = .admitted then arrived (· - 1) else s.ring))
    ∧ (r.visit = some h → (r.state = .inLane ∨ r.state = .admitted) → r.window = none →
      s.revertBooking l h = put { r with state := .noShow, visit := none } (s.book.noShow + 1) s.ring)
    ∧ (r.visit ≠ some h ∨ r.state = .booked ∨ r.state = .noShow → s.revertBooking l h = s)
    ∧ (s.releaseBooking l h = if r.visit = some h then put { r with visit := none } s.book.noShow s.ring else s)

/-! ### Lane points and lane links (R43 to R59) -/

/-- R45, R66: in AUTO the exit barrier is commanded raised only while the visit or the lane is RELEASING, the entry
barrier only while the lane is IDLE or its visit is ENTERING with the entry-cleared mark clear; the two barriers are
never both raised; LAMP_GO is lit exactly where one of them is raised, and LAMP_STOP exactly where neither is. R44, R46
to R48: POINT_WRITE replaces a given latch, and a given direction of points 3 to 6 alone, and reports the point with its
read value; POINT_READ reports the mode and every point and changes nothing. A point above 6 or a latch value above 1 is
refused with BAD_PARAM. That POINT_READ gives its seven points with no count byte before them is the model's choice
(notes/assumptions/10). -/
def Obligations.PointsFollowTheLaneAndTheirRequests : Prop :=
  (∀ (s : State) (n : Lane), s.prst = false →
     ((s.lane n).mode = .auto →
       (s.lineLevel n 4 = true ↔ s.laneState n = .releasing ∨ ∃ v x, s.Resident n v x ∧ x.state = .releasing)
       ∧ (s.lineLevel n 3 = true ↔ s.laneState n = .idle
           ∨ ∃ v x, s.Resident n v x ∧ x.state = .entering ∧ (s.lane n).entryCleared = false)
       ∧ ¬ (s.lineLevel n 3 = true ∧ s.lineLevel n 4 = true)
       ∧ (s.lineLevel n 6 = true ↔ s.lineLevel n 3 = true ∨ s.lineLevel n 4 = true)
       ∧ s.lineLevel n 5 = !s.lineLevel n 6)
     ∧ ((s.lane n).mode = .closed → s.lineLevel n 3 = false ∧ s.lineLevel n 4 = false ∧ s.lineLevel n 5 = true
         ∧ s.lineLevel n 6 = false)
     ∧ ((s.lane n).mode = .manual → ∀ p : Fin 7, 3 ≤ p.val →
         s.lineLevel n p = ((s.lane n).points[p].drive && (s.lane n).points[p].latch)))
  ∧ (∀ (s : State) (f : ReqFrame) (rest : List ReqFrame) (n : Lane),
       let point (u : State) (p : Fin 7) : List Byte :=
         eFlag (u.lane n).points[p].drive ++ eFlag (u.lane n).points[p].latch
           ++ eFlag (if (u.lane n).points[p].drive then (u.lane n).points[p].latch else u.lineLevel n p)
       (∀ (p : Nat) (direction : Option Bool) (latch : Option Nat), s.Ready 0x24#8 f rest → p < 256 →
         (∀ k ∈ latch, k < 256) →
         f.fields = laneByte n :: e1 p ++ eOpt (fun b : Bool => e1 (if b then 1 else 0)) direction ++ eOpt e1 latch →
         ((6 < p ∨ ∃ k ∈ latch, 1 < k) → exec .pointWrite s = .next ((s.taken rest).answered f .badParam []))
         ∧ ∀ hp : p < 7, (∀ k ∈ latch, k ≤ 1) →
             let old := (s.lane n).points[p]
             let new : Point := ⟨if p < 3 then old.drive else direction.getD old.drive, (latch.map (· == 1)).getD old.latch⟩
             let t : State := { s.taken rest with
               lanes := s.lanes.set n { s.lane n with points := (s.lane n).points.set p new } }
             exec .pointWrite s = .next (t.answered f .ok (point t ⟨p, hp⟩)))
       ∧ (s.Ready 0x25#8 f rest → f.fields = [laneByte n] →
           exec .pointRead s = .next ((s.taken rest).answered f .ok
             (e1 (s.lane n).mode.code ++ (List.finRange 7).flatMap (point s)))))

/-- R57: LANE_FLAGS_CLEAR clears the flags its mask names, in the order OVERRUN, FRAME_ERROR, CHECK_ERROR, STRAY,
reports the four flags as they stand after it, and leaves the change set, the visits and the receive buffer. A mask
bit beyond the fourth, and a lane outside 1–12, are refused with BAD_PARAM. That the response gives the four flags as a
flag byte each and no mask is the model's choice (notes/assumptions/10). -/
def Obligations.FlagsClearClearsTheNamedFlags : Prop :=
  (∀ (s : State) (f : ReqFrame) (rest : List ReqFrame) (n : Lane) (mask : Byte), s.Ready 0x26#8 f rest →
     f.fields = [laneByte n, mask] →
     let old := (s.lane n).flags
     let keep (i : Nat) (b : Bool) : Bool := b && !mask.getLsbD i
     let new : LinkFlags := ⟨keep 0 old.overrun, keep 1 old.frameError, keep 2 old.checkError, keep 3 old.stray⟩
     exec .laneFlagsClear s = .next (
       if 16 ≤ mask.toNat then (s.taken rest).answered f .badParam []
       else ({ s.taken rest with lanes := s.lanes.set n { s.lane n with flags := new } } : State).answered f .ok
         (eFlag new.overrun ++ eFlag new.frameError ++ eFlag new.checkError ++ eFlag new.stray)))
  ∧ (∀ (s : State) (f : ReqFrame) (rest : List ReqFrame) (lane mask : Byte), s.Ready 0x26#8 f rest →
       f.fields = [lane, mask] → (lane = 0 ∨ 12 < lane.toNat) →
       exec .laneFlagsClear s = .next ((s.taken rest).answered f .badParam []))

/-- R51, R55, R56: a lane frame arrival is judged in order: delimiting (FRAME_ERROR), check (CHECK_ERROR), contents
(FRAME_ERROR), a full buffer (OVERRUN); each discard sets its one flag and puts the lane into the change set, and
OVERRUN and CHECK_ERROR set the link loss mark of a visit in ENTERING or CHECKING; otherwise the frame is the newest
of the buffer. A start mark inside a frame discards the open frame with FRAME_ERROR (R220). That an arrival carries one
frame from mark to mark, and that a frame begun before the release of PRST is judged whole by the level at its end, is
the model's choice (notes/assumptions/7). -/
def Obligations.LaneFrameArrivalIsJudgedInOrder : Prop :=
  ∀ (s : State) (n : Lane) (chars : List RxChar), s.prst = false →
    let flagged (flags : LinkFlags) : State := { s with
      lanes := s.lanes.set n { s.lane n with flags := flags }
      link := { s.link with changes := joinList (.lane n) s.link.changes } }
    let old := (s.lane n).flags
    let lossy (u : State) (a : Instr) : Prop :=
      (∀ v x, s.Resident n v x → x.state = .entering ∨ x.state = .checking →
        exec a s = .next { u with visits := u.visits.set v { u.visits[v] with visit := some { x with linkLoss := true } } })
      ∧ ((∀ v x, s.Resident n v x → x.state ≠ .entering ∧ x.state ≠ .checking) → exec a s = .next u)
    let a : Instr := .laneFrameArrival n chars
    (serialFrame chars = .error .delimiting → exec a s = .next (flagged { old with frameError := true }))
    ∧ (serialFrame chars = .error .check → lossy (flagged { old with checkError := true }) a)
    ∧ (∀ fr, serialFrame chars = .ok fr →
        (laneContents fr = none → exec a s = .next (flagged { old with frameError := true }))
        ∧ ∀ c, laneContents fr = some c →
            (2 ≤ (s.lane n).buffer.length → lossy (flagged { old with overrun := true }) a)
            ∧ ((s.lane n).buffer.length < 2 → exec a s = .next { s with
                lanes := s.lanes.set n { s.lane n with buffer := (s.lane n).buffer ++ [c] } }))
    ∧ exec (.frameCutShort n) s = .next (flagged { old with frameError := true })

/-- R52 to R54, R90, R95, R96, R108, R122: the Lane Unit takes the oldest frame, but for a CARD while the lane's
identification is not complete, and hands it to its owner; a frame that is not usable is discarded with STRAY. Nothing
else changes. `enterRead` is the read set rule of R95 and R96, opened with `SealSet.enter` by
ReadSetsKeepAndResolveTheBestReads. A take with nothing to take is a command with no effect: the model's choice
(notes/assumptions/4). A CARD waits behind any identification of its lane in flight, that of a visit that was aborted
(R52) or that of before a LANE_RESET or a GATE_RESTART, where R59 has the CARD taken at once and stray: the model's
reading and choice (notes/assumptions/17). -/
def Obligations.TakenFrameGoesToItsOwner : Prop :=
  ∀ (s : State) (n : Lane), s.prst = false →
    let a : Instr := .laneFrameTake n
    let took (rest : List LaneFrame) : State := { s with lanes := s.lanes.set n { s.lane n with buffer := rest } }
    let busy : Prop := s.engine.waiting[n] ≠ none ∨ ∃ op, s.engine.inFlight = some (.lane n op)
    let stray (rest : List LaneFrame) : State := { s with
      lanes := s.lanes.set n { s.lane n with buffer := rest, flags := { (s.lane n).flags with stray := true } }
      link := { s.link with changes := joinList (.lane n) s.link.changes } }
    ((s.lane n).buffer = [] → exec a s = .next s)
    ∧ (∀ refs rest, (s.lane n).buffer = .card refs :: rest → busy → exec a s = .next s)
    ∧ (∀ fr rest, (s.lane n).buffer = fr :: rest → ((∃ refs, fr = .card refs) → ¬ busy) →
        (∀ v x, s.Resident n v x → x.state ≠ .entering ∧ x.state ≠ .checking) → exec a s = .next (stray rest))
    ∧ ∀ fr rest v x, (s.lane n).buffer = fr :: rest → s.Resident n v x → (x.state = .entering ∨ x.state = .checking) →
        let put (y : Visit) : State := { took rest with visits := s.visits.set v { s.visits[v] with visit := some y } }
        (∀ text conf, fr = .plate text conf → exec a s = .next (put
          (if 2 ≤ text.length ∧ text.length ≤ 10 then { x with plates := enterRead 8 text (min 100 conf) x.plates }
            else x)))
        ∧ (∀ pos text conf, fr = .container pos text conf → exec a s = .next (put
            (if containerCheck text = .malformed then x
              else { x with
                containers := x.containers.put pos (enterRead 6 text (min 100 conf) (x.containers.get pos)) })))
        ∧ (∀ pos text conf, fr = .sealRead pos text conf → exec a s = .next (put
            (if text.length < 4 then x
              else { x with
                seals := x.seals.put pos ((x.seals.get pos).enter text (min 100 conf)) })))
        ∧ (∀ pos size faces, fr = .scan pos size faces → exec a s =
            let old := s.grader.lanes[n]
            let new : GradeLane :=
              if x.grading = .isOpen then
                { old with
                  pending := some ⟨s.handle v, pos, size,
                    faces.map fun q => { q with c := min 100 q.c }⟩
                  superseded := if old.pending = none then old.superseded else min 65535 (old.superseded + 1) }
              else { old with late := min 65535 (old.late + 1) }
            .next { took rest with grader := { s.grader with lanes := s.grader.lanes.set n new } })
        ∧ (∀ refs, fr = .card refs → ¬ busy → x.card ≠ .none → exec a s = .next (stray rest))
        ∧ ∀ refs, fr = .card refs → ¬ busy → x.card = .none → refs.length ≤ 2 → ∃ kept : List Text,
            kept.Sublist refs ∧ kept.Nodup ∧ (∀ t, t ∈ kept ↔ t ∈ refs ∧ t.length = 8)
            ∧ exec a s = .next { put { x with card := .pending, unreadable := refs.any fun t => t.length != 8 } with
                engine := { s.engine with waiting := s.engine.waiting.set n (some ⟨s.handle v, kept⟩) } }

/-- R95, R96: a repeated text raises its entry's confidence to a higher one and keeps its place; a new text joins at
the newest end while the set has room; a full set gives way to a confidence above its lowest, the oldest of the lowest
leaving; and otherwise the read is discarded. R98, R99: the resolved plate is the qualifying entry of the highest
confidence, the first entered among equals, and PLATE_UNREAD is added when none qualifies; a position is RESOLVED to
the best qualifying VALID entry, CHECK_FAIL with the best qualifying entry when none is VALID, and UNREAD when none
qualifies. R108 to R110: a seal read set takes a repeated text by the same raise, and a new text while it holds fewer
than 6 entries; a new text at a full set is discarded, the overflow mark is set and no entry leaves. It keeps at most 6
entries and each text once. -/
def Obligations.ReadSetsKeepAndResolveTheBestReads : Prop :=
  (∀ (cap : Nat) (t : Text) (c : Nat) (rs : List ReadEntry), c ≤ 100 → (∀ e ∈ rs, e.conf ≤ 100) →
     ((∃ e ∈ rs, e.text = t) → enterRead cap t c rs =
       rs.map fun e => if e.text = t then { e with conf := max e.conf c } else e)
     ∧ ((∀ e ∈ rs, e.text ≠ t) → rs.length < cap → enterRead cap t c rs = rs ++ [⟨t, c⟩])
     ∧ ∀ (before : List ReadEntry) (e : ReadEntry) (after : List ReadEntry), (∀ e ∈ rs, e.text ≠ t) → cap ≤ rs.length →
         rs = before ++ e :: after → (∀ o ∈ rs, e.conf ≤ o.conf) → (∀ o ∈ before, e.conf < o.conf) →
         enterRead cap t c rs = if e.conf < c then before ++ after ++ [⟨t, c⟩] else rs)
  ∧ (let best (rs : List ReadEntry) (e : ReadEntry) : Prop :=
       ∃ before after, rs = before ++ e :: after ∧ (∀ o ∈ before, o.conf < e.conf) ∧ ∀ o ∈ after, o.conf ≤ e.conf
     ∀ (floor : Nat) (rs : List ReadEntry),
       let q := rs.filter fun e => floor ≤ e.conf
       let valid := q.filter fun e => containerCheck e.text = .valid
       (∀ e, best valid e → resolvePos floor rs = .resolved e)
       ∧ (∀ e, valid = [] → best q e → resolvePos floor rs = .checkFail e)
       ∧ (q = [] → resolvePos floor rs = .unread)
       ∧ ∀ (x : Visit) (b : Book), x.plates = rs →
           (∀ e, best q e → (x.resolvePlate b floor).plate = some e
             ∧ (x.resolvePlate b floor).reasons.plateUnread = x.reasons.plateUnread)
           ∧ (q = [] → x.resolvePlate b floor = { x with reasons := { x.reasons with plateUnread := true } }))
  ∧ (∀ (x : SealSet) (t : Text) (c : Nat),
       ((∃ e ∈ x.entries, e.text = t) → x.enter t c = { x with
         entries := x.entries.map fun e => if e.text = t then { e with conf := max e.conf c } else e })
       ∧ ((∀ e ∈ x.entries, e.text ≠ t) → x.entries.length < 6 →
           x.enter t c = { x with entries := x.entries ++ [⟨t, c⟩] })
       ∧ ((∀ e ∈ x.entries, e.text ≠ t) → 6 ≤ x.entries.length → x.enter t c = { x with overflow := true })
       ∧ (x.entries.length ≤ 6 → (x.enter t c).entries.length ≤ 6)
       ∧ ((x.entries.map (·.text)).Nodup → ((x.enter t c).entries.map (·.text)).Nodup)
       ∧ (∀ e ∈ x.entries, ∃ d ∈ (x.enter t c).entries, d.text = e.text ∧ e.conf ≤ d.conf))

/-! ### The lane sequencer (R60 to R89) -/

/-- R81: LANE_MODE. AUTO is always taken; MANUAL is taken in MANUAL, by a lane with no resident visit that is not
RELEASING, and with a HELD visit, and is otherwise refused with LANE_BUSY; CLOSED closes such a lane at once and
otherwise sets its closing mark. The signs may start the jobs that become due. -/
def Obligations.LaneModeChangesTheMode : Prop :=
  ∀ (s : State) (f : ReqFrame) (rest : List ReqFrame) (n : Lane) (m : Mode), s.Ready 0x20#8 f rest →
    f.fields = laneByte n :: e1 m.code →
    let empty : Prop := (s.lane n).resident = none ∧ (s.lane n).releasing = false
    let held : Prop := ∃ v x, s.Resident n v x ∧ x.state = .held
    let becomes (l : LaneUnit) (wait : List Lane) : Prop := ∃ t : State,
      exec .laneMode s = .next (t.answered f .ok [])
      ∧ t = { s.taken rest with lanes := s.lanes.set n l, openWait := wait, signs := t.signs } ∧ SignsMayStart s t
    let leaves := s.openWait.filter (· != n)
    (m = .auto → becomes { s.lane n with mode := .auto, closing := false } s.openWait)
    ∧ (m = .manual → (s.lane n).mode = .manual ∨ empty ∨ held →
        becomes { s.lane n with mode := .manual, closing := false } leaves)
    ∧ (m = .manual → (s.lane n).mode ≠ .manual → ¬ empty → ¬ held →
        exec .laneMode s = .next ((s.taken rest).answered f .laneBusy []))
    ∧ (m = .closed → ¬ empty → becomes { s.lane n with closing := true } leaves)
    ∧ (m = .closed → empty →
        becomes { s.lane n with mode := .closed, closing := false, dwell := .stopped } leaves)

/-- R70: LANE_SET replaces each given limit, a value of 0 being stored as 1, changes no running count, and reports the
eight limits. R97, R114: CHECK_SET and SEAL_SET replace each given setting, refuse a floor above 100 with BAD_PARAM
and report the settings as they stand after the request. R140: MIX_SET is checked in the rule's order and replaces
every given parameter together. R141: GRADER_STATUS reports the grader and, with YES, sets every lane's two counts to
0. The layouts of MIX_SET and GRADER_STATUS are the model's choice (notes/assumptions/10). -/
def Obligations.SettingsAreReplacedAndReported : Prop :=
  (∀ (s : State) (f : ReqFrame) (rest : List ReqFrame) (n : Lane) (a b c d e g h i : Option Nat), s.Ready 0x21#8 f rest →
     (∀ q ∈ [a, b, c, d, e, g, h, i], ∀ k ∈ q, k < 65536) →
     f.fields = laneByte n :: (eOpt e2 a ++ eOpt e2 b ++ eOpt e2 c ++ eOpt e2 d ++ eOpt e2 e ++ eOpt e2 g ++ eOpt e2 h
       ++ eOpt e2 i) →
     let old := (s.lane n).limits
     let set (given : Option Nat) (old : Nat) : Nat := match given with
       | none => old
       | some 0 => 1
       | some (k + 1) => k + 1
     let new : Limits := ⟨set a old.approach, set b old.settle, set c old.card, set d old.hold, set e old.yardWait,
       set g old.clear, set h old.refresh, set i old.signReply⟩
     exec .laneSet s = .next
       (({ s.taken rest with lanes := s.lanes.set n { s.lane n with limits := new } } : State).answered f .ok
         (e2 new.approach ++ e2 new.settle ++ e2 new.card ++ e2 new.hold ++ e2 new.yardWait ++ e2 new.clear
           ++ e2 new.refresh ++ e2 new.signReply)))
  ∧ (∀ (s : State) (f : ReqFrame) (rest : List ReqFrame),
       (∀ a b : Option Nat, s.Ready 0x30#8 f rest → (∀ q ∈ [a, b], ∀ k ∈ q, k < 256) →
           f.fields = eOpt e1 a ++ eOpt e1 b →
         exec .checkSet s = .next (
           if ∃ q ∈ [a, b], ∃ k ∈ q, 100 < k then (s.taken rest).answered f .badParam []
           else
             ({ s.taken rest with check := { s.check with
               plateFloor := a.getD s.check.plateFloor
               containerFloor := b.getD s.check.containerFloor } } : State).answered f .ok
               (e1 (a.getD s.check.plateFloor) ++ e1 (b.getD s.check.containerFloor))))
       ∧ ∀ (a : Option Nat) (b : Option Bool), s.Ready 0x31#8 f rest → (∀ k ∈ a, k < 256) →
         f.fields = eOpt e1 a ++ eOpt (fun w : Bool => e1 (if w then 1 else 0)) b →
         exec .sealSet s = .next (
           if ∃ k ∈ a, 100 < k then (s.taken rest).answered f .badParam []
           else
             ({ s.taken rest with check := { s.check with
               sealFloor := a.getD s.check.sealFloor
               weakOn := b.getD s.check.weakOn } } : State).answered f .ok
               (e1 (a.getD s.check.sealFloor) ++ eFlag (b.getD s.check.weakOn))))
  ∧ (∀ (s : State) (f : ReqFrame) (rest : List ReqFrame),
       let params (p : Params) : List Byte :=
         ([p.dent, p.hole, p.rust].flatMap fun r => e2signed r.d ++ e2signed r.b ++ e2signed r.s)
           ++ e1 p.wd ++ e1 p.wh ++ e1 p.wr ++ e2 p.t1 ++ e2 p.t2 ++ e2 p.t3 ++ e1 p.floor ++ e1 p.k
       let number (p : Pos) : List Byte := match p with | .one => e1 1 | .two => e1 2
       (∀ (q : Fin 9 → Option Int) (w : Fin 3 → Option Nat) (th : Fin 3 → Option Nat) (floor k : Option Nat),
         s.Ready 0x34#8 f rest → (∀ i, ∀ z ∈ q i, -32768 ≤ z ∧ z < 32768) → (∀ i, ∀ z ∈ w i, z < 256) →
         (∀ i, ∀ z ∈ th i, z < 65536) → (∀ z ∈ floor, z < 256) → (∀ z ∈ k, z < 256) →
         f.fields = ((List.finRange 9).flatMap fun i => eOpt e2signed (q i))
             ++ ((List.finRange 3).flatMap fun i => eOpt e1 (w i))
           ++ ((List.finRange 3).flatMap fun i => eOpt e2 (th i)) ++ eOpt e1 floor ++ eOpt e1 k →
         let p := s.grader.params
         let row (i : Fin 9) (old : MixRow) : MixRow :=
           ⟨(q i).getD old.d, (q (i + 1)).getD old.b, (q (i + 2)).getD old.s⟩
         let new : Params := ⟨row 0 p.dent, row 3 p.hole, row 6 p.rust, (w 0).getD p.wd, (w 1).getD p.wh, (w 2).getD p.wr,
           (th 0).getD p.t1, (th 1).getD p.t2, (th 2).getD p.t3, floor.getD p.floor, k.getD p.k⟩
         let bad : Prop := (∃ i, ∃ z ∈ q i, z < -8192 ∨ 8191 < z) ∨ (∃ i, ∃ z ∈ w i, 15 < z) ∨ (∃ z ∈ floor, 100 < z)
           ∨ (∃ z ∈ k, z < 1 ∨ 15 < z) ∨ ¬ (1 ≤ new.t1 ∧ new.t1 < new.t2 ∧ new.t2 < new.t3 ∧ new.t3 ≤ 1023)
         let given : Prop := (∃ i, q i ≠ none) ∨ (∃ i, w i ≠ none) ∨ (∃ i, th i ≠ none) ∨ floor ≠ none ∨ k ≠ none
         let grading : Prop := ∃ n v x, s.Resident n v x ∧ x.grading ≠ .closed
         (bad → exec .mixSet s = .next ((s.taken rest).answered f .badParam []))
         ∧ (¬ bad → given → grading → exec .mixSet s = .next ((s.taken rest).answered f .wrongState []))
         ∧ (¬ bad → ¬ (given ∧ grading) → exec .mixSet s = .next
             (({ s.taken rest with grader := { s.grader with params := new } } : State).answered f .ok (params new))))
       ∧ ∀ clear : Bool, s.Ready 0x35#8 f rest → f.fields = [if clear then 0x00#8 else 0x01#8] → ∃ t : State,
           exec .graderStatus s = .next (t.answered f .ok (params s.grader.params
             ++ eFlag s.grader.inFlight.isSome ++ eOpt (fun p : Lane × Scan => e1 (p.1.val + 1)) s.grader.inFlight
             ++ eOpt (fun p : Lane × Scan => eHandle p.2.handle) s.grader.inFlight
             ++ eOpt (fun p : Lane × Scan => number p.2.pos) s.grader.inFlight ++ e1 (s.grader.lastServed.val + 1)
             ++ (List.finRange 12).flatMap fun n =>
                 eOpt (fun c : Scan => eHandle c.handle) s.grader.lanes[n].pending
                   ++ eOpt (fun c : Scan => number c.pos) s.grader.lanes[n].pending
                   ++ e2 s.grader.lanes[n].superseded ++ e2 s.grader.lanes[n].late))
           ∧ t = { s.taken rest with grader := { s.grader with lanes := t.grader.lanes } }
           ∧ ∀ n : Lane, t.grader.lanes[n] =
               if clear then { s.grader.lanes[n] with superseded := 0, late := 0 } else s.grader.lanes[n])

/-- R83: LANE_ABORT on a lane with no resident visit is refused with WRONG_STATE. Otherwise the visit is REJECTED with
reason ABORTED and joins the change set, the bookings of its legs not done are reverted and its reservations and bay
places given back (R20, R178, R180), its identification is withdrawn and its scan slot emptied, it is the lane's abort
subject (R188), and the lane is RELEASING with the clear limit in repeat form; the buffer and the flags are kept. A
retry of the yard-wait queue follows where a place was given back (R173), and the signs may start the jobs that become
due. The exit-seen mark is read from the rules by inference (notes/assumptions/11). -/
def Obligations.LaneAbortRejectsTheVisit : Prop :=
  ∀ (s : State) (f : ReqFrame) (rest : List ReqFrame) (n : Lane), s.Ready 0x22#8 f rest → f.fields = [laneByte n] →
    ((s.lane n).resident = none → exec .laneAbort s = .next ((s.taken rest).answered f .wrongState []))
    ∧ ∀ v x, s.Resident n v x →
        let u : State := { (s.taken rest).rejection v x .aborted with
          engine := { s.engine with waiting := s.engine.waiting.set n none }
          lanes := s.lanes.set n { s.lane n with
            resident := none
            releasing := true
            exitSeen := s.loops[n].exit
            dwell := ⟨.repeating, (s.lane n).limits.clear, .clear, 0⟩ }
          grader := { s.grader with lanes := s.grader.lanes.set n { s.grader.lanes[n] with pending := none } }
          signs := s.signs.set n { s.sign n with abortSubject := some (s.handle v), printDue := false } }
        let w := if x.legs.any Leg.holdsPlace then u.retry else u
        ∃ t : State, exec .laneAbort s = .next (t.answered f .ok []) ∧ t = { w with signs := t.signs }
            ∧ SignsMayStart w t
          ∧ t.visit v = some (x.rejected .aborted) ∧ t.handle v = s.handle v ∧ s.handle v ∉ t.yard.queue

/-- R82, R85: LANE_RESET is taken in every mode and state. The resident visit is REJECTED with reason LANE_RESET and
joins the change set, the bookings of its legs not done are reverted and its reservations and bay places given back
(R20, R178, R180); the lane's marks, timers, receiver, identification and scan slot are cleared, its limits and points
are kept, and a closing lane becomes CLOSED and joins the change set; the lane's sign job is abandoned and its mirror
is UNKNOWN (R197). A retry of the yard-wait queue follows where a place was given back (R173), and the signs may start
the jobs that become due. A TICKET's mirror has 10
entries: the model's choice (notes/assumptions/24). -/
def Obligations.LaneResetClearsTheLane : Prop :=
  ∀ (s : State) (f : ReqFrame) (rest : List ReqFrame) (n : Lane), s.Ready 0x23#8 f rest → f.fields = [laneByte n] →
    (∀ v, (s.lane n).resident = some v → (s.visit v).isSome = true) →
    let closes := (s.lane n).closing
    let r : State := match s.residentVisit n with
      | some (v, x) => (s.taken rest).rejection v x .laneReset
      | none => s.taken rest
    let u : State := { r with
      link := { r.link with changes := if closes then joinList (.lane n) r.link.changes else r.link.changes }
      engine := { s.engine with waiting := s.engine.waiting.set n none }
      lanes := s.lanes.set n { (s.lane n).afterReset with
        mode := if closes then .closed else (s.lane n).mode, closing := false }
      openWait := s.openWait.filter (· != n)
      grader := { s.grader with lanes := s.grader.lanes.set n { s.grader.lanes[n] with pending := none } }
      signs := s.signs.set n (s.sign n).afterReset }
    let w := if (s.residentVisit n).any fun p => p.2.legs.any Leg.holdsPlace then u.retry else u
    ∃ t : State, exec .laneReset s = .next (t.answered f .ok []) ∧ t = { w with signs := t.signs } ∧ SignsMayStart w t
      ∧ (∀ v x, s.Resident n v x → t.visit v = some (x.rejected .laneReset) ∧ t.handle v = s.handle v)
      ∧ t.lane n = u.lane n

/-- R60, R71 to R74, R79, R84: what a change of a loop's level does: the opening of a visit in the lowest free slot,
the open-wait list, the entry-cleared mark, the entry to CHECKING, the exit-seen mark, and the departure with the
closing or the next opening that follows it. A level that does not change is no event. Beside the clauses' own effects
only the loop's level and due sign jobs change. A level that repeats as a command with no effect is the model's choice
(notes/assumptions/5), and the exit-seen mark outlives the departure as the rules leave it (notes/assumptions/11). -/
def Obligations.LoopEventsMoveTheVisitThroughTheLane : Prop :=
  ∀ (s : State) (n : Lane), s.prst = false →
    let level (p : Loop) (b : Bool) : Vector Loops 12 := s.loops.set n (s.loops[n].put p b)
    let becomes (p : Loop) (b : Bool) (u : State) : Prop := s.loops[n].get p ≠ b →
      ∃ t : State, exec (.loopEvent n p b) s = .next t ∧ t = { u with loops := level p b, signs := t.signs }
        ∧ SignsMayStart u t
    let lane (l : LaneUnit) : State := { s with lanes := s.lanes.set n l }
    let l := s.lane n
    let gone : LaneUnit := { l with resident := none, releasing := false, dwell := .stopped, clearOverdue := false }
    let freed : Vector Sign 12 := s.signs.set n { s.sign n with abortSubject := none }
    let departs (u : State) : Prop :=
      (l.closing = true → becomes .exit false { u with
        link := { u.link with changes := joinList (.lane n) u.link.changes }
        lanes := s.lanes.set n { gone with mode := .closed, closing := false } })
      ∧ (l.closing = false → s.loops[n].entry = false ∨ l.mode ≠ .auto →
        becomes .exit false { u with lanes := s.lanes.set n gone })
      ∧ (l.closing = false → s.loops[n].entry = true → l.mode = .auto → s.freeCount = 0 →
        becomes .exit false { u with
          lanes := s.lanes.set n gone
          openWait := if n ∈ s.openWait then s.openWait else s.openWait ++ [n] })
      ∧ ∀ w : Fin 64, l.closing = false → s.loops[n].entry = true → l.mode = .auto → s.freeCount ≠ 0 →
        s.visit w = none → (∀ k : Fin 64, k < w → s.visit k ≠ none) →
        becomes .exit false { u with
          lanes := s.lanes.set n { gone with
            resident := some w, entryCleared := false, dwell := ⟨.oneShot, l.limits.approach, .approach, 0⟩ }
          visits := u.visits.set w { s.visits[w] with visit := some (.opened n s.time.minute) }
          freeCount := s.freeCount - 1
          openWait := s.openWait.filter (· != n) }
    (∀ p b, s.loops[n].get p = b → exec (.loopEvent n p b) s = .next s)
    ∧ (l.resident = none →
        (∀ v : Fin 64, l.mode = .auto → l.closing = false → l.releasing = false → s.freeCount ≠ 0 →
          s.visit v = none → (∀ w : Fin 64, w < v → s.visit w ≠ none) →
          becomes .entry true { s with
            lanes := s.lanes.set n { l with
              resident := some v, entryCleared := false, dwell := ⟨.oneShot, l.limits.approach, .approach, 0⟩ }
            visits := s.visits.set v { s.visits[v] with visit := some (.opened n s.time.minute) }
            freeCount := s.freeCount - 1
            openWait := s.openWait.filter (· != n) })
        ∧ (l.mode = .auto → l.closing = false → l.releasing = false → s.freeCount = 0 →
            becomes .entry true { s with
              openWait := if n ∈ s.openWait then s.openWait else s.openWait ++ [n] })
        ∧ (l.mode ≠ .auto ∨ l.closing = true ∨ l.releasing = true → becomes .entry true s)
        ∧ becomes .entry false { s with openWait := s.openWait.filter (· != n) }
        ∧ (∀ b, becomes .stop b s)
        ∧ (∀ b, l.releasing = false → becomes .exit b s)
        ∧ (l.releasing = true → becomes .exit true (lane { l with exitSeen := true }))
        ∧ (l.releasing = true → l.exitSeen = false → becomes .exit false s)
        ∧ (l.releasing = true → l.exitSeen = true → departs { s with signs := freed }))
    ∧ (∀ v x, s.Resident n v x →
        becomes .entry true s
        ∧ becomes .entry false (lane { l with entryCleared := true })
        ∧ becomes .stop false s
        ∧ (x.state ≠ .entering → becomes .stop true s)
        ∧ (x.state = .entering → becomes .stop true { s with
            lanes := s.lanes.set n { l with dwell := ⟨.oneShot, l.limits.settle, .settle, 0⟩ }
            visits := s.visits.set v { s.visits[v] with visit := some { x with state := .checking } } })
        ∧ (∀ b, x.state ≠ .releasing → becomes .exit b s)
        ∧ (x.state = .releasing → becomes .exit true (lane { l with exitSeen := true }))
        ∧ (x.state = .releasing → l.exitSeen = false → becomes .exit false s)
        ∧ (x.state = .releasing → l.exitSeen = true → departs { s with
            link := { s.link with changes := joinList (.visit v) s.link.changes }
            visits := s.visits.set v { s.visits[v] with visit := some { x with
              state := if x.outcome = some .turnAway ∨ x.outcome = some .holdTimeout then .rejected else .enRoute
              rejectReason := if x.outcome = some .turnAway then some .turnAway
                else if x.outcome = some .holdTimeout then some .holdTimeout else none
              outcome := none } }
            signs := freed }))

/-! ### Identification and the end of CHECKING (R11, R33 to R36, R75 to R77, R91 to R93, R98, R147, R148) -/

/-- R91, R92, R33 to R36: the leg of a reference follows from what its lookup finds: nothing, a BOOKED booking, which
is claimed whatever its window outcome, or a booking in another state, which is left as it is. A LATE booking goes to
the first of the first R windows in the ring whose ON_TIME range holds the arrival minute and that has room, if any.
-/
def Obligations.LegFollowsFromWhatTheLookupFinds : Prop :=
  ∀ (s : State) (h : Handle) (a : Nat) (ref : Text), ref.length = 8 →
    let leg (slot : Nat) (b : Booking) (w : WindowOutcome) (e : Option LegException) : Leg :=
      ⟨ref, some slot, some b.kind, some b.teu, w, none,
        if b.kind = .exportFull ∨ b.kind = .emptyReturn then .notRead else .notApplicable,
        if b.kind = .exportFull ∨ b.kind = .emptyReturn then .unread else .notApplicable, none, none,
        if b.kind = .exportFull ∨ b.kind = .emptyReturn then .flag else .notApplicable, e, .pending, none, false⟩
    let claimed (slot : Nat) (b : Booking) (window : Nat) (ring : Ring) : State := { s with
      book := { s.book with
        records := tablePut slot { b with state := .inLane, visit := some h, window := some window } s.book.records }
      ring := ring }
    (s.book.lookup ref = none → s.formLeg h a ref =
      (s, ⟨ref, none, none, none, .noWindow, none, .notApplicable, .notApplicable, none, none, .notApplicable,
        some .notFound, .pending, none, false⟩))
    ∧ ∀ (slot : Nat) (b : Booking), s.book.lookup ref = some slot → tableFind slot s.book.records = some b →
        b.ref = ref →
        (b.state = .inLane → s.formLeg h a ref = (s, leg slot b .noWindow (some .duplicateUse)))
        ∧ (b.state = .admitted → s.formLeg h a ref = (s, leg slot b .noWindow (some .alreadyAdmitted)))
        ∧ (b.state = .noShow → s.formLeg h a ref = (s, leg slot b .noWindow (some .noShow)))
        ∧ ∀ w : Nat, b.state = .booked → b.window = some w →
            let L := s.ring.span
            let E := s.ring.early
            let G := s.ring.grace
            (a + E < w → s.formLeg h a ref = (claimed slot b w s.ring, leg slot b .early none))
            ∧ (w ≤ a + E → a < w + L + G → s.formLeg h a ref = (claimed slot b w s.ring, leg slot b .onTime none))
            ∧ (w ≤ a + E → w + L + G ≤ a →
                let offered := ((s.ring.windows.filter fun x =>
                    x.start ≤ a + E ∧ a < x.start + L + G).take s.ring.reach)
                let room := offered.find? fun x => x.booked.get b.kind < x.quota.get b.kind
                (room = none → s.formLeg h a ref = (claimed slot b w s.ring, leg slot b .late none))
                ∧ ∀ x, room = some x → s.formLeg h a ref =
                    (claimed slot b x.start { s.ring with windows := s.ring.windows.map fun y =>
                      if y.start = w then { y with booked := y.booked.put b.kind (y.booked.get b.kind - 1) }
                      else if y.start = x.start then { y with booked := y.booked.put b.kind (y.booked.get b.kind + 1) }
                      else y }, leg slot b .transferred none))

/-- R10, R11, R91, R93: an identification whose handle names no lane-resident visit completes with no effect but freeing
the engine. Otherwise it stores one leg for each reference in list order, each lookup seeing the claims of those before
it, makes the card DONE, adds CARD_UNREADABLE and TEU_LIMIT where they apply and gives the leg notice of R133, by which
the grading may close early (R134). A visit in CHECKING has a running card limit stopped and makes the test of R75; a
visit in HELD with its hold timeout due is turned away with outcome HOLD_TIMEOUT (R157), its legs dropped and their
bookings reverted; and in every other state the visit stays where it is. The signs may start the jobs that become due.
The clauses are for a completion that no further operation waits for. -/
def Obligations.IdentificationFormsTheLegsOfItsVisit : Prop :=
  ∀ (s : State) (n : Lane) (op : Ident), s.prst = false → s.engine.inFlight = some (.lane n op) →
    (∀ m : Lane, s.engine.waiting[m] = none) → (∀ e req, s.link.exec = some e → e.work ≠ .booking req) →
    let freed : State := { s with engine := { s.engine with inFlight := none } }
    let becomes (w : State) : Prop := ∃ t : State,
      exec .identificationComplete s = .next t ∧ t = { w with signs := t.signs } ∧ SignsMayStart w t
    ((∀ x, s.named op.handle = some x → x.state = .enRoute ∨ x.state = .rejected) → becomes freed)
    ∧ ∀ x, s.named op.handle = some x → x.state ≠ .enRoute → x.state ≠ .rejected →
        let v := op.handle.slot
        let formed := (s.formLegs op.handle x.arrival op.refs).1
        let legs := (s.formLegs op.handle x.arrival op.refs).2
        let teu (p : Kind → Bool) : Nat := ((legs.filter fun l => l.kind.any p).map fun l => l.teu.getD 0).sum
        let drop : Kind → Bool := fun k => k == .exportFull || k == .emptyReturn
        let told : Visit := { x with
          legs := legs
          card := .done
          reasons := { x.reasons with
            cardUnreadable := x.reasons.cardUnreadable || x.unreadable
            teuLimit := x.reasons.teuLimit || decide (2 < teu drop ∨ 2 < teu fun k => !drop k) }
          dropLegs := some (legs.countP fun l => l.kind.any drop) }
        let store (u : State) (y : Visit) : State :=
          { u with visits := s.visits.set v { s.visits[v] with visit := some y } }
        let base : State := store { freed with book := formed.book, ring := formed.ring } told
        legs.map (·.ref) = op.refs
        ∧ ∀ (y : Visit) (lanes : Vector GradeLane 12),
            (base.ClosesEarly x.lane v told ∧ y = { told with grading := .closed }
              ∧ lanes = s.grader.lanes.set x.lane s.grader.lanes[x.lane].emptied
            ∨ ¬ base.ClosesEarly x.lane v told ∧ y = told ∧ lanes = s.grader.lanes) →
            let u : State := store { base with grader := { s.grader with lanes := lanes } } y
            let stopped : State := { u with lanes := s.lanes.set x.lane { s.lane x.lane with
              dwell := if (s.lane x.lane).dwell.limit = .card then .stopped else (s.lane x.lane).dwell } }
            (x.state ≠ .checking → ¬ (x.state = .held ∧ x.timeoutDue = true) → becomes u)
            ∧ (x.state = .checking → s.Resident x.lane v x →
                (y.CheckingEnds → becomes (stopped.endOfChecking x.lane v))
                ∧ (¬ y.CheckingEnds → becomes stopped))
            ∧ (x.state = .held → x.timeoutDue = true →
                let reverted := u.reverted op.handle legs
                becomes (store { u with
                  book := reverted.book
                  ring := reverted.ring
                  lanes := s.lanes.set x.lane { s.lane x.lane with
                    exitSeen := s.loops[x.lane].exit
                    dwell := ⟨.repeating, (s.lane x.lane).limits.clear, .clear, 0⟩ }
                  signs := s.signs.set x.lane { s.sign x.lane with printDue := false } }
                  { y with
                    legs := legs.map fun l => { l with disposition := .dropped, dest := none }
                    source := some .auto
                    outcome := some .holdTimeout
                    state := .releasing
                    holdStart := none
                    timeoutDue := false }))

/-- R75, R135: the settle limit expires in CHECKING: the settle notice closes the grading with its forced results, or
makes it CLOSING while a scan from the lane is in flight; a card not DONE has the card limit loaded; and CHECKING ends
where its three conditions now hold (`Visit.CheckingEnds`), the card DONE among them. R75 to R77: at the card limit's
expiry NO_CARD is added; CHECKING ends when its settle has expired and its grading is complete, and the visit is then
HELD, judged, with its hold start, the hold limit loaded and an entry in the change set; otherwise it stays in CHECKING.
No booking changes there. The signs may start the jobs that become due. -/
def Obligations.SettleAndCardExpiriesTestTheEndOfChecking : Prop :=
  ∀ (s : State) (n : Lane) (v : Fin 64) (x : Visit), s.prst = false → s.Resident n v x → x.state = .checking →
    0 < (s.lane n).dwell.due →
    let becomes (a : Instr) (w : State) : Prop := ∃ t : State,
      exec a s = .next t ∧ t = { w with signs := t.signs } ∧ SignsMayStart w t
    let spent : Dwell := { (s.lane n).dwell with due := (s.lane n).dwell.due - 1 }
    ((s.lane n).dwell.limit = .settle →
       let flying := s.grader.inFlight.any fun p => p.1 == n
       let y : Visit := ({ x with settleExpired := true } : Visit).noticed flying
       let u : State := { s with
         lanes := s.lanes.set n { s.lane n with
           dwell := if x.card = .done then spent else ⟨.oneShot, (s.lane n).limits.card, .card, 0⟩ }
         visits := s.visits.set v { s.visits[v] with visit := some y }
         grader := { s.grader with lanes :=
           if x.grading = .isOpen then s.grader.lanes.set n s.grader.lanes[n].emptied else s.grader.lanes } }
       (x.grading ≠ .isOpen → y = { x with settleExpired := true })
       ∧ (x.grading = .isOpen → (∃ c, s.grader.inFlight = some (n, c)) →
           y = { x with settleExpired := true, grading := .closing })
       ∧ (x.grading = .isOpen → (∀ c, s.grader.inFlight ≠ some (n, c)) →
           y = { x with
             settleExpired := true
             grading := .closed
             stability := ⟨x.stability.one.force, x.stability.two.force⟩ })
       ∧ (y.CheckingEnds → becomes (.settleExpiry n) (u.endOfChecking n v))
       ∧ (¬ y.CheckingEnds → becomes (.settleExpiry n) u))
    ∧ ((s.lane n).dwell.limit = .card →
       let marked : Visit := { x with reasons := { x.reasons with noCard := true } }
       let complete : Prop := x.settleExpired = true ∧ (x.grading = .closed
         ∨ x.card = .done ∧ ∀ l ∈ x.legs, l.kind ≠ some .exportFull ∧ l.kind ≠ some .emptyReturn)
       (¬ complete → becomes (.cardLimitExpiry n) { s with
          lanes := s.lanes.set n { s.lane n with dwell := spent }
          visits := s.visits.set v { s.visits[v] with visit := some marked } })
       ∧ (complete → becomes (.cardLimitExpiry n) { s with
          link := { s.link with changes := joinList (.visit v) s.link.changes }
          lanes := s.lanes.set n { s.lane n with dwell := ⟨.oneShot, (s.lane n).limits.hold, .hold, 0⟩ }
          visits := s.visits.set v { s.visits[v] with visit := some { marked.judge s.book s.check with
            state := .held, holdStart := some (s.time.minute, s.time.phase) } } }))

/-- R76, R147 to R150: at the end of CHECKING the visit is judged; one that is not clean is HELD with its hold start,
the hold limit loaded and an entry in the change set, and no booking changes; a clean one has the booking of each leg
admitted in list order (R19), every leg at disposition YARD, source AUTO and outcome ADMIT, and is handed to the Yard
Allocator: it is in YARD_WAIT in the queue, or placed: in DIRECTING or already RELEASING. -/
def Obligations.EndOfCheckingHoldsOrAdmits : Prop :=
  ∀ (s : State) (n : Lane) (v : Fin 64) (x : Visit), s.Resident n v x → x.state = .checking →
    let y := x.judge s.book s.check
    let t := s.endOfChecking n v
    let admitted := y.legs.foldl (fun u l => u.admitBooking l (s.handle v)) s
    let store (z : Visit) : Vector VisitSlot 64 := s.visits.set v { s.visits[v] with visit := some z }
    (y.isClean = false → t = { s with
        link := { s.link with changes := joinList (.visit v) s.link.changes }
        lanes := s.lanes.set n { s.lane n with dwell := ⟨.oneShot, (s.lane n).limits.hold, .hold, 0⟩ }
        visits := store { y with state := .held, holdStart := some (s.time.minute, s.time.phase) } })
    ∧ (y.isClean = true →
        t = ({ s with
          book := admitted.book
          ring := admitted.ring
          visits := store { y with
            legs := y.legs.map fun l => { l with disposition := .yard }
            source := some .auto
            outcome := some .admission } } : State).allocate n v
        ∧ t.book = admitted.book ∧ t.ring = admitted.ring
        ∧ ∃ z, t.visit v = some z ∧ z.source = some .auto ∧ z.outcome = some .admission
          ∧ z.legs.map (·.ref) = x.legs.map (·.ref) ∧ (∀ l ∈ z.legs, l.disposition = .yard)
          ∧ (z.state = .yardWait ∧ s.handle v ∈ t.yard.queue ∧ z.holdStart = some (s.time.minute, s.time.phase)
            ∨ (z.state = .directing ∨ z.state = .releasing) ∧ z.holdStart = none ∧ ∀ l ∈ z.legs, l.done = false →
              l.dest ≠ none))

/-- The end of CHECKING, opened. R99 to R102: `exact` is the exact step: the eligible legs in list order, each to the
lowest unbound position resolved to its booked number, verdict MATCH; then one unbound eligible leg and one unbound
position with reads bind in the fallback step, verdict MISMATCH or CHECK_FAIL; every other leg keeps what it has. R115
to R118: a bound leg takes its seal findings and the first row of R116's table that applies. R137, R138: it takes the
damage result of its position and the verdict of its class and declared condition. R98, R148: PLATE_MISMATCH,
PLATE_UNREAD and LINK_LOSS are added. R147, R148: a visit is clean when it has a leg, every finding of every leg
passes and no reason stands. -/
def Obligations.JudgingBindsTheLegsAndFindsTheirVerdicts : Prop :=
  (∀ (x : Visit) (b : Book) (c : Check), (∀ l ∈ x.legs, l.bound = none) →
     let y := x.judge b c
     let o (p : Pos) : PosOutcome := resolvePos c.containerFloor (x.containers.get p)
     let eligible (i : Nat) (r : Booking) : Prop := ∃ l, x.legs[i]? = some l ∧ l.IsDrop
       ∧ l.exception ≠ some .duplicateUse ∧ l.exception ≠ some .alreadyAdmitted ∧ l.Books b r
     let equal (p : Pos) (r : Booking) : Prop := ∃ e, o p = .resolved e ∧ r.container = some e.text
     ∃ exact : Nat → Option Pos,
       let free (i : Nat) (p : Pos) : Prop := ∀ j < i, exact j ≠ some p
       let left (i : Nat) : Prop := (∃ r, eligible i r) ∧ exact i = none
       let unbound (p : Pos) : Prop := o p ≠ .unread ∧ ∀ i, exact i ≠ some p
       let last (i : Nat) (p : Pos) : Prop := left i ∧ (∀ j, left j → j = i) ∧ unbound p ∧ ∀ q, unbound q → q = p
       (∀ i r, eligible i r →
         (exact i = some .one ↔ equal .one r ∧ free i .one)
         ∧ (exact i = some .two ↔ equal .two r ∧ free i .two ∧ ¬ (equal .one r ∧ free i .one)))
       ∧ (∀ i, (∀ r, ¬ eligible i r) → exact i = none)
       ∧ y = { x with
           plate := y.plate
           legs := y.legs
           outcomes := some ⟨o .one, o .two⟩
           reasons := { x.reasons with
             plateMismatch := y.reasons.plateMismatch
             plateUnread := y.reasons.plateUnread
             linkLoss := x.reasons.linkLoss || x.linkLoss } }
       ∧ ((∀ e ∈ x.plates, e.conf < c.plateFloor) → y.plate = x.plate ∧ y.reasons.plateUnread = true
           ∧ y.reasons.plateMismatch = x.reasons.plateMismatch)
       ∧ ((∃ e ∈ x.plates, c.plateFloor ≤ e.conf) → y.reasons.plateUnread = x.reasons.plateUnread
           ∧ ∃ e ∈ x.plates, y.plate = some e ∧ (y.reasons.plateMismatch = true ↔ x.reasons.plateMismatch = true
             ∨ ∃ l ∈ x.legs, ∃ r q, l.Books b r ∧ r.plate = some q ∧ q ≠ e.text))
       ∧ y.legs.length = x.legs.length
       ∧ ∀ i l m, x.legs[i]? = some l → y.legs[i]? = some m →
           (∀ p, exact i = some p → m.bound = some p ∧ m.container = .matched)
           ∧ (∀ p, last i p → m.bound = some p ∧ ((∃ e, o p = .resolved e) → m.container = .mismatch)
               ∧ ((∃ e, o p = .checkFail e) → m.container = .checkFail))
           ∧ (exact i = none → (∀ p, ¬ last i p) → m = l)
           ∧ m = { l with
               bound := m.bound, container := m.container, sealVerdict := m.sealVerdict, findings := m.findings
               damage := m.damage, damageVerdict := m.damageVerdict }
           ∧ ∀ p r, m.bound = some p → l.Books b r →
               let entries := (x.seals.get p).entries
               let overflow := (x.seals.get p).overflow
               let expected : List Text := if l.kind = some .exportFull then r.seals else []
               let extras := entries.filter fun e => decide (c.sealFloor ≤ e.conf) && !expected.contains e.text
               let count := extras.length + if overflow then 1 else 0
               let position := x.stability.get p
               ∃ outcome : Text → SealOutcome,
                 (∀ t, (∀ e ∈ entries, e.text ≠ t) → outcome t = .missing)
                 ∧ (∀ t e, FirstOf (fun q : ReadEntry => q.text = t) entries e →
                     outcome t = if c.sealFloor ≤ e.conf then .matched e.conf else .matchedWeak e.conf)
                 ∧ m.findings = some ⟨c.sealFloor, c.weakOn, expected.map fun t => (t, outcome t), extras, overflow⟩
                 ∧ (expected = [] → m.sealVerdict = if count = 0 then .noneExpected else .unexpected)
                 ∧ (expected ≠ [] → 0 < count → m.sealVerdict = .mismatch)
                 ∧ (expected ≠ [] → count = 0 → (∃ t ∈ expected, outcome t = .missing) → m.sealVerdict = .missing)
                 ∧ (expected ≠ [] → count = 0 → (∀ t ∈ expected, outcome t ≠ .missing) →
                     ((∃ t ∈ expected, ∃ k, outcome t = .matchedWeak k) → c.weakOn = false → m.sealVerdict = .weak)
                     ∧ ((∀ t ∈ expected, ∀ k, outcome t ≠ .matchedWeak k) ∨ c.weakOn = true →
                         m.sealVerdict = .intact))
                 ∧ (∀ q, position.result = some q → m.damage = some ⟨q.cls, some q, position.scans⟩
                     ∧ (q.cls = .clean ∨ q.cls = .minor → m.damageVerdict = .pass)
                     ∧ (q.cls = .major → m.damageVerdict =
                         if r.declared = some .damaged then .passDeclared else .flag)
                     ∧ (q.cls = .critical ∨ q.cls = .incomplete → m.damageVerdict = .flag))
                 ∧ (position.result = none → m.damage = some ⟨.notScanned, none, 0⟩ ∧ m.damageVerdict = .flag))
  ∧ (∀ y : Visit, y.isClean = true ↔ y.legs ≠ []
       ∧ y.reasons = ⟨false, false, false, false, false, false, false, false⟩
       ∧ ∀ l ∈ y.legs,
           let pickup : Prop := l.kind = some .importPickup ∨ l.kind = some .emptyPickup
           l.exception = none ∧ (l.window = .onTime ∨ l.window = .transferred)
           ∧ (l.container = .matched ∨ pickup ∧ l.container = .notApplicable)
           ∧ (l.sealVerdict = .intact ∨ l.sealVerdict = .noneExpected ∨ pickup ∧ l.sealVerdict = .notApplicable)
           ∧ (l.damageVerdict = .pass ∨ l.damageVerdict = .passDeclared
             ∨ pickup ∧ l.damageVerdict = .notApplicable))

/-! ### Damage grading (R124, R125, R127 to R132, R136) -/

/-- R127 to R129: each component is the rounded quotient of its accumulator, clamped to 0–1023; the severity is the
floor of the weighted sum over 8, clamped to 1023; the grade is UNSEEN below the coverage floor and otherwise follows
the thresholds. R130: the class of five face grades is CRITICAL or MAJOR by the worst seen face whatever else is
unseen; otherwise INCOMPLETE when a face is UNSEEN; otherwise MINOR or CLEAN. R132: K equal scans in a row of a
position with no result settle it: after j scans of one size class and one set of grades, applied to a position that
had seen no scan, the result is absent for j below K, and for j at or above K it is SETTLED with those grades and
their class. R136: the force sets the result of a position with scans and no result to its worst seen grades, UNSEEN
where a face was never seen, with their class, the size class of the previous tuple and basis FORCED, and leaves every
other position. -/
def Obligations.ScansAreGradedAndSettleAPosition : Prop :=
  ((∀ (p : Params) (f : Face),
       (∀ r : MixRow, ∃ z : Int, 4096 * z ≤ r.d * f.d + r.b * f.b + r.s * f.s + 2048
         ∧ r.d * f.d + r.b * f.b + r.s * f.s + 2048 < 4096 * (z + 1)
         ∧ (r.component f : Int) = if z < 0 then 0 else if 1023 < z then 1023 else z)
       ∧ (∃ v : Nat, 8 * v ≤ p.wd * p.dent.component f + p.wh * p.hole.component f + p.wr * p.rust.component f
         ∧ p.wd * p.dent.component f + p.wh * p.hole.component f + p.wr * p.rust.component f < 8 * (v + 1)
         ∧ p.severity f = if 1023 < v then 1023 else v)
       ∧ (f.c < p.floor → p.grade f = .unseen)
       ∧ (p.floor ≤ f.c → p.t1 ≤ p.t2 → p.t2 ≤ p.t3 →
           (p.severity f < p.t1 → p.grade f = .clean)
           ∧ (p.t1 ≤ p.severity f → p.severity f < p.t2 → p.grade f = .minor)
           ∧ (p.t2 ≤ p.severity f → p.severity f < p.t3 → p.grade f = .major)
           ∧ (p.t3 ≤ p.severity f → p.grade f = .critical)))
    ∧ (∀ f : Faces Grade,
         let has (g : Grade) : Prop := g ∈ [f.left, f.right, f.front, f.rear, f.roof]
         (has .critical → classOf f = .critical)
         ∧ (¬ has .critical → has .major → classOf f = .major)
         ∧ (¬ has .critical → ¬ has .major → has .unseen → classOf f = .incomplete)
         ∧ (¬ has .critical → ¬ has .major → ¬ has .unseen → has .minor → classOf f = .minor)
         ∧ (¬ has .critical → ¬ has .major → ¬ has .unseen → ¬ has .minor → classOf f = .clean)))
  ∧ (∀ (k size j : Nat) (f : Faces Grade), 1 ≤ k → k ≤ 15 →
      let x := (fun y : Stability => y.apply k size f)^[j] Stability.opened
      x.scans = min 255 j ∧ x.run = min 255 j
      ∧ (j < k → x.result = none) ∧ (k ≤ j → x.result = some ⟨classOf f, f, .settled, size⟩))
  ∧ (∀ x : Stability,
       (0 < x.scans → x.result = none → ∃ r, x.force = { x with result := some r } ∧ r.basis = .forced
         ∧ r.cls = classOf r.faces ∧ (∀ size f, x.previous = some (size, f) → r.size = size)
         ∧ r.faces = ⟨x.worst.left.getD .unseen, x.worst.right.getD .unseen, x.worst.front.getD .unseen,
             x.worst.rear.getD .unseen, x.worst.roof.getD .unseen⟩)
       ∧ (x.scans = 0 ∨ x.result ≠ none → x.force = x))

/-- R125: the completion of a scan. With no lane-resident visit named it is discarded and counted nowhere, a visit
that is EN_ROUTE or REJECTED among them; for a lane-resident visit whose grading is CLOSED it is discarded and its
lane's late count rises; otherwise it is applied to the position it names, with the grades of the parameters in force.
An OPEN grading may then close early (R134), by the pending slot of the visit's own lane, whose test of R75 follows; a
CLOSING grading of the lane's visit closes with its forced results, whether the scan was applied or discarded (R135).
A visit in CHECKING whose three conditions now hold ends it (R75, R133). The visit of another lane is named only after
its slot's sixteenth reuse (R61; notes/assumptions/12). The clauses are for a completion that no further scan waits
for. -/
def Obligations.GradingCompletionAppliesTheScan : Prop :=
  ∀ (s : State) (n : Lane) (c : Scan), s.prst = false → s.grader.inFlight = some (n, c) →
    (∀ m : Lane, s.grader.lanes[m].pending = none) →
    let v := c.handle.slot
    let freed (lanes : Vector GradeLane 12) : State :=
      { s with grader := { s.grader with inFlight := none, lanes := lanes } }
    let store (w : Fin 64) (y : Visit) : State :=
      { freed s.grader.lanes with visits := s.visits.set w { s.visits[w] with visit := some y } }
    let becomes (w : State) : Prop := ∃ t : State,
      exec .gradingCompletion s = .next t ∧ t = { w with signs := t.signs } ∧ SignsMayStart w t
    let stays : Prop := ∀ w y, s.Resident n w y → y.state = .checking → ¬ y.CheckingEnds
    let noneCloses : Prop := ∀ w y, s.visit w = some y → y.lane = n → y.grading ≠ .closing
    let oneCloses (w : Fin 64) : Prop := ∀ k y, s.visit k = some y → y.lane = n → y.grading = .closing → k = w
    let gone : Prop := ∀ x, s.named c.handle = some x → x.state = .enRoute ∨ x.state = .rejected
    let force (x : Visit) : Visit :=
      { x with grading := .closed, stability := ⟨x.stability.one.force, x.stability.two.force⟩ }
    let tested (m : Lane) (w : Fin 64) (y : Visit) : Prop :=
      (y.state = .checking → y.CheckingEnds → becomes ((store w y).endOfChecking m w))
      ∧ (¬ (y.state = .checking ∧ y.CheckingEnds) → becomes (store w y))
    (gone → noneCloses → stays → becomes (freed s.grader.lanes))
    ∧ (∀ w x, gone → oneCloses w → s.Resident n w x → x.lane = n → x.grading = .closing → tested n w (force x))
    ∧ (∀ w x, gone → oneCloses w → s.visit w = some x → x.lane = n → x.grading = .closing → x.state ≠ .checking →
        stays → becomes (store w (force x)))
    ∧ ∀ x, s.named c.handle = some x → x.state ≠ .enRoute → x.state ≠ .rejected →
        let applied : Visit := { x with
          stability := x.stability.put c.pos ((x.stability.get c.pos).apply s.grader.params.k c.size
            ⟨s.grader.params.grade c.faces.left, s.grader.params.grade c.faces.right,
              s.grader.params.grade c.faces.front, s.grader.params.grade c.faces.rear,
              s.grader.params.grade c.faces.roof⟩) }
        (x.grading = .closed → noneCloses → stays →
          becomes (freed (s.grader.lanes.set n { s.grader.lanes[n] with
            late := min 65535 (s.grader.lanes[n].late + 1) })))
        ∧ (x.grading = .isOpen → noneCloses → s.Resident x.lane v x →
            (x.lane = n ∨ stays ∧ (s.lane n).resident ≠ some v) →
            ((store v applied).ClosesEarly x.lane v applied → tested x.lane v { applied with grading := .closed })
            ∧ (¬ (store v applied).ClosesEarly x.lane v applied → x.lane = n → tested n v applied)
            ∧ (¬ (store v applied).ClosesEarly x.lane v applied → x.lane ≠ n → becomes (store v applied)))
        ∧ (x.grading = .closing → x.lane = n → oneCloses v → s.Resident n v x → tested n v (force applied))

/-! ### Visits (R61, R72, R86, R87, R152 to R157, R175, R77, R80) -/

/-- R86: VISIT_QUERY changes nothing and reports the visit: its record with its legs (R62, R63), its lane's marks and
timer where it is lane-resident (R86), its read sets and position outcomes (R104), its seal read sets and each leg's
findings (R119), its grading (R142), and whether a hold timeout is due (R157). R87: VISIT_CLOSE refuses a
lane-resident visit with LANE_BUSY and otherwise releases the bookings of its legs (R21), gives its reservations and
bay places back (R178, R179), takes its entry out of the change set and frees the slot, its generation advancing from
15 to 0; the free count rises by 1, or the slot is handed to the oldest lane that waits, which opens a visit in it
(R72). A retry of the yard-wait queue follows where a place was given back, and the signs may start the jobs that
become due. The layout of VISIT_QUERY is the model's choice (notes/assumptions/10, notes/assumptions/23). -/
def Obligations.VisitQueryReportsAndVisitCloseFreesTheSlot : Prop :=
  ∀ (s : State) (f : ReqFrame) (rest : List ReqFrame) (v : Fin 64) (x : Visit), s.visit v = some x →
    f.fields = e1 v.val ++ e1 (s.visits[v]).gen.val →
    let number (p : Pos) : List Byte := match p with | .one => e1 1 | .two => e1 2
    let entry (r : ReadEntry) : List Byte := eText r.text ++ e1 r.conf
    let checked (r : ReadEntry) : List Byte :=
      entry r ++ if containerCheck r.text = .valid then [0x00#8] else [0x01#8]
    let grades (g : Faces Grade) : List Byte :=
      e1 g.left.code ++ e1 g.right.code ++ e1 g.front.code ++ e1 g.rear.code ++ e1 g.roof.code
    let damage (d : LegDamage) : List Byte := e1 d.cls.code ++ eOpt (fun r : PosResult => grades r.faces) d.result
      ++ eOpt (fun r : PosResult => e1 r.basis.code) d.result ++ e1 d.scans
      ++ eOpt (fun r : PosResult => e1 r.size) d.result
    let dest (d : Dest) : List Byte := match d with
      | .block b => 0x00#8 :: e1 b.val
      | .bay b => 0x01#8 :: e1 b.val
    let leg (l : Leg) : List Byte := eText l.ref ++ eOpt e2 l.slot ++ eOpt (fun k : Kind => e1 k.code) l.kind
      ++ eOpt e1 l.teu ++ e1 l.window.code ++ eOpt number l.bound ++ e1 l.container.code ++ e1 l.sealVerdict.code
      ++ eOpt damage l.damage ++ e1 l.damageVerdict.code
      ++ eList (fun q : LegException => e1 q.code) l.exception.toList ++ e1 l.disposition.code ++ eOpt dest l.dest
      ++ eFlag l.done
    let record : List Byte := e1 (x.lane.val + 1) ++ e1 x.state.code ++ e4 x.arrival ++ e1 x.card.code
      ++ eOpt entry x.plate ++ eFlag x.linkLoss ++ eList e1 (standing x.reasons) ++ eList leg x.legs
      ++ eOpt (fun p : Nat × Nat => e4 p.1 ++ e2 p.2) x.holdStart ++ eOpt (fun o : ReleaseOutcome => e1 o.code) x.outcome
      ++ eOpt (fun o : DecisionSource => e1 o.code) x.source ++ eOpt (fun o : RejectReason => e1 o.code) x.rejectReason
      ++ eFlag x.signFault
    let resident : Bool := x.state != .enRoute && x.state != .rejected
    let ofLane (e : LaneUnit → List Byte) : List Byte := if resident then 0x01#8 :: e (s.lane x.lane) else [0x00#8]
    let timer : List Byte := ofLane (fun u => eFlag u.entryCleared) ++ ofLane (fun u => eFlag u.exitSeen)
      ++ ofLane (fun u => e1 u.dwell.form.code) ++ ofLane fun u => e2 u.dwell.count
    let outcome (o : PosOutcome) : List Byte := match o with
      | .resolved r => 0x00#8 :: 0x01#8 :: entry r
      | .checkFail r => 0x01#8 :: 0x01#8 :: entry r
      | .unread => [0x02#8, 0x00#8]
    let reads : List Byte := eList entry x.plates ++ eList checked x.containers.one ++ eList checked x.containers.two
      ++ eOpt (fun o : PosPair PosOutcome => outcome o.one ++ outcome o.two) x.outcomes
    let finding (q : Text × SealOutcome) : List Byte := eText q.1 ++ match q.2 with
      | .matched c => 0x00#8 :: 0x01#8 :: e1 c
      | .matchedWeak c => 0x01#8 :: 0x01#8 :: e1 c
      | .missing => [0x02#8, 0x00#8]
    let findings (q : SealFindings) : List Byte :=
      e1 q.floor ++ eFlag q.weakOn ++ eList finding q.seals ++ eList entry q.extras ++ eFlag q.overflow
    let seals : List Byte := eList entry x.seals.one.entries ++ eFlag x.seals.one.overflow
      ++ eList entry x.seals.two.entries ++ eFlag x.seals.two.overflow ++ x.legs.flatMap fun l => eOpt findings l.findings
    let seen (g : Option Grade) : List Byte := eOpt (fun q : Grade => e1 q.code) g
    let position (y : Stability) : List Byte := e1 y.scans ++ e1 y.run
      ++ eOpt (fun p : Nat × Faces Grade => e1 p.1 ++ grades p.2) y.previous
      ++ seen y.worst.left ++ seen y.worst.right ++ seen y.worst.front ++ seen y.worst.rear ++ seen y.worst.roof
      ++ eOpt (fun r : PosResult => e1 r.cls.code ++ grades r.faces ++ e1 r.basis.code ++ e1 r.size) y.result
    let grading : List Byte :=
      e1 x.grading.code ++ eOpt e1 x.dropLegs ++ position x.stability.one ++ position x.stability.two
    (s.Ready 0x28#8 f rest → exec .visitQuery s = .next ((s.taken rest).answered f .ok
      (record ++ timer ++ reads ++ seals ++ grading ++ eFlag x.timeoutDue)))
    ∧ (s.Ready 0x2A#8 f rest → x.state ≠ .enRoute → x.state ≠ .rejected →
        exec .visitClose s = .next ((s.taken rest).answered f .laneBusy []))
    ∧ (s.Ready 0x2A#8 f rest → (x.state = .enRoute ∨ x.state = .rejected) →
        let freed : State := { s with
          link := { s.link with requests := rest, changes := s.link.changes.filter (· != .visit v) }
          book := (x.legs.foldl (fun u l => u.releaseBooking l (s.handle v)) s).book
          freeCount := s.freeCount + 1
          visits := s.visits.set v ⟨(s.visits[v]).gen + 1, none⟩
          yard := s.yard.givenBack (s.handle v) x.legs }
        let u : State := match s.openWait with
          | [] => freed
          | n :: _ => { freed with
              lanes := s.lanes.set n { s.lane n with
                resident := some v
                entryCleared := false
                dwell := ⟨.oneShot, (s.lane n).limits.approach, .approach, 0⟩ }
              openWait := s.openWait.filter (· != n)
              freeCount := s.freeCount
              visits := s.visits.set v ⟨(s.visits[v]).gen + 1, some (.opened n s.time.minute)⟩ }
        let w := if x.legs.any Leg.holdsPlace then u.retry else u
        ∃ t : State, exec .visitClose s = .next (t.answered f .ok []) ∧ t = { w with signs := t.signs }
          ∧ SignsMayStart w t ∧ t.freeCount = u.freeCount ∧ (t.visits[v]).gen = (s.visits[v]).gen + 1
          ∧ t.link.changes.filter (· != .visit v) = t.link.changes)

/-- R152: VISIT_DECIDE is checked in the rule's order: a list that does not match the legs, or is given for none, is
refused with BAD_PARAM, a visit that is not HELD (one that is EN_ROUTE or REJECTED among them) or whose card is
PENDING with WRONG_STATE, and a leg that its choice does not fit with the result of steps 5 to 7 and the leg's number.
R155, R156: TURN_AWAY, and a list of DROP alone, drop every leg, reverting its booking, and the visit is RELEASING
with source SERVER and outcome TURN_AWAY. R154: a list with a YARD or an INSPECT admits or reverts each leg's booking
in list order, each leg takes its disposition and loses its destination, source SERVER and outcome ADMIT are set, and
the visit is handed to the Yard Allocator (`State.allocate`, opened by AllocationPlacesAllLegsOrNone). The selector of
the decision and the layout of the answer are the model's choice (notes/assumptions/10). -/
def Obligations.VisitDecideActsOnAHeldVisit : Prop :=
  ∀ (s : State) (f : ReqFrame) (rest : List ReqFrame) (v : Fin 64) (x : Visit) (more : List Byte),
    s.Ready 0x29#8 f rest → s.visit v = some x →
    f.fields = e1 v.val ++ e1 (s.visits[v]).gen.val ++ more →
    let choices (cs : List Choice) : List Byte := 0x01#8 :: eList (fun c : Choice => match c with
      | .yard => [0x00#8] | .inspect => [0x01#8] | .drop => [0x02#8]) cs
    let isTurnAway : Prop := more = [0x00#8]
      ∨ (x.legs ≠ [] ∧ x.legs.length ≤ 2 ∧ more = choices (List.replicate x.legs.length .drop))
    (isTurnAway → (x.state ≠ .held ∨ x.card = .pending) →
      exec .visitDecide s = .next ((s.taken rest).answered f .wrongState []))
    ∧ (∀ cs : List Choice, more = choices cs → cs.length ≤ 2 →
        ((cs.length ≠ x.legs.length ∨ x.legs = []) →
          exec .visitDecide s = .next ((s.taken rest).answered f .badParam []))
        ∧ (cs.length = x.legs.length → x.legs ≠ [] → (x.state ≠ .held ∨ x.card = .pending) →
          exec .visitDecide s = .next ((s.taken rest).answered f .wrongState []))
        ∧ (∀ r i, cs.length = x.legs.length → x.legs ≠ [] → x.state = .held → x.card ≠ .pending →
          choiceCheck s.book (s.handle v) x.legs cs = some (r, i) →
          exec .visitDecide s = .next ((s.taken rest).answered f r (e1 i))))
    ∧ ∀ n : Lane, s.Resident n v x → x.lane = n →
      (isTurnAway → x.state = .held → x.card ≠ .pending →
          let reverted := s.reverted (s.handle v) x.legs
          let w : State := { s.taken rest with
            book := reverted.book
            ring := reverted.ring
            lanes := s.lanes.set n { s.lane n with
              exitSeen := s.loops[n].exit, dwell := ⟨.repeating, (s.lane n).limits.clear, .clear, 0⟩ }
            visits := s.visits.set v { s.visits[v] with visit := some { x with
              legs := x.legs.map fun l => { l with disposition := .dropped, dest := none }
              source := some .server
              outcome := some .turnAway
              state := .releasing
              holdStart := none
              timeoutDue := false } }
            signs := s.signs.set n { s.sign n with printDue := false } }
          ∃ t : State, exec .visitDecide s = .next (t.answered f .ok (e1 VisitState.releasing.code
              ++ eList (fun _ : Leg => e1 Disposition.dropped.code ++ [0x00#8]) x.legs))
            ∧ t = { w with signs := t.signs } ∧ SignsMayStart w t)
      ∧ ∀ cs : List Choice, more = choices cs → cs.length ≤ 2 →
          cs.length = x.legs.length → x.state = .held → x.card ≠ .pending →
          choiceCheck s.book (s.handle v) x.legs cs = none → (∃ c ∈ cs, c ≠ .drop) →
          let chosen := (x.legs.zip cs).foldl (fun u p =>
            if p.2 = .drop then u.revertBooking p.1 (s.handle v) else u.admitBooking p.1 (s.handle v)) s
          let disposition (c : Choice) : Disposition := match c with
            | .yard => .yard | .inspect => .inspect | .drop => .dropped
          let dest (d : Dest) : List Byte := match d with
            | .block b => 0x00#8 :: e1 b.val
            | .bay b => 0x01#8 :: e1 b.val
          let admitted : State := { s.taken rest with
            book := chosen.book
            ring := chosen.ring
            lanes := s.lanes.set n { s.lane n with dwell := .stopped }
            visits := s.visits.set v { s.visits[v] with visit := some { x with
              legs := List.zipWith (fun l c => { l with disposition := disposition c, dest := none }) x.legs cs
              source := some .server
              outcome := some .admission
              holdStart := none
              timeoutDue := false } } }
          let w := admitted.allocate n v
          ∃ (t : State) (y : Visit), exec .visitDecide s = .next (t.answered f .ok (e1 y.state.code
              ++ eList (fun l : Leg => e1 l.disposition.code ++ eOpt dest l.dest) y.legs))
            ∧ t = { w with signs := t.signs } ∧ SignsMayStart w t
            ∧ t.visit v = some y ∧ y.source = some .server ∧ y.outcome = some .admission ∧ y.timeoutDue = false
            ∧ y.legs.map (·.disposition) = cs.map disposition
            ∧ (y.state = .yardWait ∨ y.state = .directing ∨ y.state = .releasing)

/-- R74, R77, R80, R157, R175: the expiries of the approach, hold, yard-wait and clear limits. Approach: HELD with
APPROACH_TIMEOUT and the settle notice (R135). Hold: turned away with outcome HOLD_TIMEOUT, every leg's booking
reverted, or due while the card is PENDING. Yard-wait: out of the queue, HELD with NO_YARD_SPACE. Clear, for a visit
in RELEASING and for a lane in RELEASING with no visit: the clear-overdue mark, and the lane joins the change set. The
signs may start the jobs that become due. That an expiry not due is a command with no effect is the model's choice
(notes/assumptions/4). -/
def Obligations.DwellExpiriesActByTheVisitsState : Prop :=
  (∀ (s : State) (n : Lane), s.prst = false → (s.lane n).dwell.due = 0 →
     ∀ a ∈ [.approachLimitExpiry n, .settleExpiry n, .cardLimitExpiry n, .holdTimeout n, .yardWaitLimitExpiry n,
       Instr.clearLimitExpiry n], exec a s = .next s)
  ∧ (∀ (s : State) (n : Lane), s.prst = false → (s.lane n).dwell.limit = .clear → 0 < (s.lane n).dwell.due →
       ((∃ v x, s.Resident n v x ∧ x.state = .releasing) ∨ ((s.lane n).resident = none ∧ (s.lane n).releasing = true)) →
       exec (.clearLimitExpiry n) s = .next { s with
         link := { s.link with changes := joinList (.lane n) s.link.changes }
         lanes := s.lanes.set n { s.lane n with
           clearOverdue := true, dwell := { (s.lane n).dwell with due := (s.lane n).dwell.due - 1 } } })
  ∧ ∀ (s : State) (n : Lane) (v : Fin 64) (x : Visit), s.prst = false → s.Resident n v x →
    let due (k : LimitKind) : Prop := (s.lane n).dwell.limit = k ∧ 0 < (s.lane n).dwell.due
    let spent : LaneUnit := { s.lane n with dwell := { (s.lane n).dwell with due := (s.lane n).dwell.due - 1 } }
    let visits (y : Visit) : Vector VisitSlot 64 := s.visits.set v { s.visits[v] with visit := some y }
    let heldLane : LaneUnit := { s.lane n with dwell := ⟨.oneShot, (s.lane n).limits.hold, .hold, 0⟩ }
    let now : Option (Nat × Nat) := some (s.time.minute, s.time.phase)
    let becomes (a : Instr) (w : State) : Prop :=
      ∃ t : State, exec a s = .next t ∧ t = { w with signs := t.signs } ∧ SignsMayStart w t
    (due .approach → x.state = .entering → becomes (.approachLimitExpiry n) { s with
        link := { s.link with changes := joinList (.visit v) s.link.changes }
        lanes := s.lanes.set n heldLane
        visits := visits (({ x with
          state := .held
          holdStart := now
          reasons := { x.reasons with approachTimeout := true } } : Visit).noticed
            (s.grader.inFlight.any fun p => p.1 == n))
        grader := { s.grader with lanes :=
          if x.grading = .isOpen then s.grader.lanes.set n s.grader.lanes[n].emptied else s.grader.lanes } })
    ∧ (due .hold → x.state = .held → x.card = .pending → becomes (.holdTimeout n)
        { s with lanes := s.lanes.set n spent, visits := visits { x with timeoutDue := true } })
    ∧ (due .hold → x.state = .held → x.card ≠ .pending →
        let reverted := s.reverted (s.handle v) x.legs
        becomes (.holdTimeout n) { s with
          book := reverted.book
          ring := reverted.ring
          lanes := s.lanes.set n { s.lane n with
            exitSeen := s.loops[n].exit, dwell := ⟨.repeating, (s.lane n).limits.clear, .clear, 0⟩ }
          visits := visits { x with
            legs := x.legs.map fun l => { l with disposition := .dropped, dest := none }
            source := some .auto
            outcome := some .holdTimeout
            state := .releasing
            holdStart := none
            timeoutDue := false }
          signs := s.signs.set n { s.sign n with printDue := false } })
    ∧ (due .yardWait → x.state = .yardWait → becomes (.yardWaitLimitExpiry n) { s with
        link := { s.link with changes := joinList (.visit v) s.link.changes }
        lanes := s.lanes.set n heldLane
        visits := visits { x with
          state := .held, holdStart := now, reasons := { x.reasons with noYardSpace := true } }
        yard := { s.yard with queue := s.yard.queue.filter (· != s.handle v) } })

/-! ### The Yard Allocator (R161 to R181) -/

/-- R163 to R167: BLOCK_SET, GROUP_SET and BAY_SET are checked in their rules' order, replace what they are given and
report the record as it stands; a block that is defined takes what is not given as 0 and empty, and one in use cannot
be made UNDEFINED. R173: a change is followed by a retry of the yard-wait queue (R174, opened by
AllocationPlacesAllLegsOrNone), and the signs may start the jobs that become due. R181: BLOCK_QUERY changes nothing;
with a block it reports the block, its reservations and the groups that name it, and with none the yard-wait queue and
the four bays. A number out of range is refused with BAD_PARAM. The layouts of the answers are the model's choice
(notes/assumptions/10). -/
def Obligations.YardSettingsAreReplacedAndReported : Prop :=
  (∀ (s : State) (f : ReqFrame) (rest : List ReqFrame),
     let becomes (c : Instr) (u : State) (changed : Bool) (answer : State → List Byte) : Prop := ∃ t : State,
       let w := if changed then u.retry else u
       exec c s = .next (t.answered f .ok (answer t)) ∧ t = { w with signs := t.signs } ∧ SignsMayStart w t
     let refused (c : Instr) (r : Result) : Prop := exec c s = .next ((s.taken rest).answered f r [])
     let block (q : Block) : List Byte := e1 q.state.code ++ eOpt eText q.code
       ++ eOpt (fun a : Accepts => e1 a.code) q.accepts ++ e2 q.capacity ++ e2 q.occupied
     let taken (q : Block) : List Byte := e2 q.reserved ++ e2signed ((q.capacity : Int) - q.occupied - q.reserved)
     let places (q : Bay) : List Byte := eList (fun p : Place => eHandle p.handle ++ e1 p.leg) q.places
     (∀ (b : Fin 48) (st : Option BlockState) (code : Option (List Byte)) (acc : Option Accepts) (cap occ : Option Nat)
         (route : Option (List Byte)), s.Ready 0x38#8 f rest → (∀ k ∈ cap, k < 65536) → (∀ k ∈ occ, k < 65536) →
       (∀ t ∈ code, t.length < 256) → (∀ t ∈ route, t.length < 256) →
       f.fields = e1 b.val ++ eOpt (fun q : BlockState => e1 q.code) st ++ eOpt eRaw code
         ++ eOpt (fun q : Accepts => e1 q.code) acc ++ eOpt e2 cap ++ eOpt e2 occ ++ eOpt eRaw route →
       let stored := s.yard.blocks[b]
       let old : Block :=
         if stored.state = .undefined then ⟨.undefined, none, none, 0, 0, stored.reserved, none⟩ else stored
       let others : Prop := code ≠ none ∨ acc ≠ none ∨ cap ≠ none ∨ occ ≠ none ∨ route ≠ none
       let defines : Prop := st = some .isOpen ∨ st = some .closed
       let new : Block :=
         if st = some .undefined ∨ (old.state = .undefined ∧ ¬ (st = some .isOpen ∨ st = some .closed)) then
           ⟨.undefined, none, none, 0, 0, old.reserved, none⟩
         else
           { old with
             state := st.getD old.state
             code := (code.map normalise).or old.code
             accepts := acc.or old.accepts
             capacity := cap.getD old.capacity
             occupied := occ.getD old.occupied
             route := some ((route.map fun t => (normalise t).take 20).getD (old.route.getD [])) }
       let bad : Prop := (∃ q ∈ [cap, occ], ∃ k ∈ q, 4000 < k)
         ∨ (∃ t ∈ code, (normalise t).length < 1 ∨ 4 < (normalise t).length) ∨ st = some .undefined ∧ others
       let undefinedOthers : Prop := old.state = .undefined ∧ ¬ defines ∧ others
       let unfinished : Prop := old.state = .undefined ∧ defines ∧ (code = none ∨ acc = none)
       let clash : Prop := ∃ c : Fin 48, c ≠ b ∧ s.yard.blocks[c].state ≠ .undefined
         ∧ new.code ≠ none ∧ s.yard.blocks[c].code = new.code
       let inUse : Prop := 0 < old.reserved ∨ (∃ g : Fin 32, b ∈ s.yard.groups[g])
         ∨ ∃ v x, s.visit v = some x ∧ ∃ l ∈ x.legs, (l.kind = some .importPickup ∨ l.kind = some .emptyPickup)
             ∧ l.done = false ∧ l.dest = some (.block b)
       (bad → refused .blockSet .badParam)
       ∧ (¬ bad → undefinedOthers → refused .blockSet .wrongState)
       ∧ (¬ bad → unfinished → refused .blockSet .badParam)
       ∧ (¬ bad → ¬ undefinedOthers → ¬ unfinished → clash → refused .blockSet .badParam)
       ∧ (¬ bad → ¬ undefinedOthers → ¬ unfinished → ¬ clash → old.state ≠ .undefined → st = some .undefined → inUse →
           refused .blockSet .inUse)
       ∧ (¬ bad → ¬ undefinedOthers → ¬ unfinished → ¬ clash →
           ¬ (old.state ≠ .undefined ∧ st = some .undefined ∧ inUse) →
           becomes .blockSet { s.taken rest with yard := { s.yard with blocks := s.yard.blocks.set b new } }
             (new != stored) fun t => block t.yard.blocks[b] ++ eOpt eText t.yard.blocks[b].route ++ taken t.yard.blocks[b]))
     ∧ (∀ (g : Fin 32) (l : List (Fin 48)), s.Ready 0x3A#8 f rest → l.length ≤ 4 →
         f.fields = e1 g.val ++ 0x01#8 :: eList (fun b : Fin 48 => e1 b.val) l →
         ((∃ b ∈ l, s.yard.blocks[b].state = .undefined) ∨ ¬ l.Nodup → refused .groupSet .badParam)
         ∧ ((∀ b ∈ l, s.yard.blocks[b].state ≠ .undefined) → l.Nodup →
             becomes .groupSet { s.taken rest with yard := { s.yard with groups := s.yard.groups.set g l } }
               (l != s.yard.groups[g]) fun t => eList (fun b : Fin 48 => e1 b.val) t.yard.groups[g]))
     ∧ (∀ (g : Fin 32), s.Ready 0x3A#8 f rest → f.fields = e1 g.val ++ [0x00#8] →
         exec .groupSet s = .next ((s.taken rest).answered f .ok (eList (fun b : Fin 48 => e1 b.val) s.yard.groups[g])))
     ∧ (∀ (b : Fin 4) (code route : Option (List Byte)) (isOpen : Option Bool), s.Ready 0x3B#8 f rest →
         (∀ t ∈ code, t.length < 256) → (∀ t ∈ route, t.length < 256) →
         f.fields = e1 b.val ++ eOpt eRaw code ++ eOpt eRaw route
           ++ eOpt (fun o : Bool => e1 (if o then 0 else 1)) isOpen →
         let new : Bay := { s.yard.bays[b] with
           code := (code.map normalise).getD s.yard.bays[b].code
           route := (route.map fun t => (normalise t).take 20).getD s.yard.bays[b].route
           isOpen := isOpen.getD s.yard.bays[b].isOpen }
         ((∃ c ∈ code, (normalise c).length < 1 ∨ 4 < (normalise c).length) → refused .baySet .badParam)
         ∧ ((∀ c ∈ code, 1 ≤ (normalise c).length ∧ (normalise c).length ≤ 4) →
             becomes .baySet { s.taken rest with yard := { s.yard with bays := s.yard.bays.set b new } }
               (new.isOpen && !s.yard.bays[b].isOpen) fun t => eText t.yard.bays[b].code ++ eText t.yard.bays[b].route
                 ++ e1 (if t.yard.bays[b].isOpen then 0 else 1) ++ places t.yard.bays[b]))
     ∧ ∀ (c : Instr) (code : Byte) (k : Byte) (more : List Byte), s.Ready code f rest → f.fields = k :: more →
         fieldsDecode c f.fields = true →
         (c = .blockSet ∧ code = 0x38#8 ∧ 47 < k.toNat ∨ c = .groupSet ∧ code = 0x3A#8 ∧ 31 < k.toNat
           ∨ c = .baySet ∧ code = 0x3B#8 ∧ 3 < k.toNat) → refused c .badParam)
  ∧ (∀ (s : State) (f : ReqFrame) (rest : List ReqFrame), s.Ready 0x39#8 f rest →
       (∀ b : Fin 48, f.fields = 0x01#8 :: e1 b.val →
         let q := s.yard.blocks[b]
         let holding : Nat := ((List.finRange 64).map fun v => ((s.visit v).map fun x =>
           x.legs.countP (Leg.reserves b)).getD 0).sum
         exec .blockQuery s = .next ((s.taken rest).answered f .ok (e1 q.state.code ++ eOpt eText q.code
           ++ eOpt (fun a : Accepts => e1 a.code) q.accepts ++ e2 q.capacity ++ e2 q.occupied ++ e2 q.reserved
           ++ e2signed ((q.capacity : Int) - q.occupied - q.reserved) ++ eOpt eText q.route ++ e1 holding
           ++ eList (fun g : Fin 32 => e1 g.val) ((List.finRange 32).filter fun g => b ∈ s.yard.groups[g]))))
       ∧ (∀ b : Byte, 47 < b.toNat → f.fields = [0x01#8, b] →
         exec .blockQuery s = .next ((s.taken rest).answered f .badParam []))
       ∧ (f.fields = [0x00#8] →
         let waiting (h : Handle) : List Byte := match s.named h with
           | some x => eHandle h ++ e1 (x.lane.val + 1) ++ e2 (s.lane x.lane).dwell.count
           | none => []
         exec .blockQuery s = .next ((s.taken rest).answered f .ok (eList waiting s.yard.queue
           ++ (List.finRange 4).flatMap fun b => eText s.yard.bays[b].code ++ e1 (if s.yard.bays[b].isOpen then 0 else 1)
             ++ eList (fun p : Place => eHandle p.handle ++ e1 p.leg) s.yard.bays[b].places))))

/-- R168 to R171: an allocation tests the legs to be placed in list order, each against the records and the
destinations given to the legs before it (`State.Gives`); `dests` are the destinations of an allocation in which every
leg has one. It commits them all, a yard drop leg's TEU reserved and an inspection leg at the newest end of its bay's
place list, or, where some leg has none, nothing. R77, R78, R172: an admission's visit whose allocation fails is in
YARD_WAIT, with its hold start, the yard-wait limit loaded, at the newest end of the queue and in the change set; a
visit placed enters DIRECTING (opened by DirectionsAreReportedOnce). R173, R174: a retry walks the queue from its
oldest entry to its newest: a visit that is placed leaves the queue and enters DIRECTING, and every other keeps its
place. -/
def Obligations.AllocationPlacesAllLegsOrNone : Prop :=
  (∀ (s : State) (v : Fin 64) (x : Visit), s.visit v = some x →
     let fits (dests : List (Option Dest)) : Prop := dests.length = x.legs.length
       ∧ ∀ i l, x.legs[i]? = some l → (¬ l.IsPlaced → dests[i]? = some none)
         ∧ (l.IsPlaced → ∃ d, dests[i]? = some (some d) ∧ s.Gives x.legs dests i l d)
     let directed (l : Leg) : Option Dest → Leg
       | some d => { l with dest := some d }
       | none => l
     (∀ dests, fits dests → s.place v = some { s with
        visits := s.visits.set v { s.visits[v] with
          visit := some { x with legs := List.zipWith directed x.legs dests } }
        yard := s.yard.committed (s.handle v) x.legs dests })
     ∧ ((∀ dests, ¬ fits dests) → s.place v = none)
     ∧ ∀ n : Lane,
         (∀ t, s.place v = some t → s.allocate n v = t.enterDirecting n v)
         ∧ (s.place v = none → s.allocate n v = { s with
             link := { s.link with changes := joinList (.visit v) s.link.changes }
             lanes := s.lanes.set n { s.lane n with dwell := ⟨.oneShot, (s.lane n).limits.yardWait, .yardWait, 0⟩ }
             visits := s.visits.set v { s.visits[v] with
               visit := some { x with state := .yardWait, holdStart := some (s.time.minute, s.time.phase) } }
             yard := { s.yard with queue := s.yard.queue ++ [s.handle v] } }))
  ∧ (∀ s : State, ∃ run : Nat → State, run 0 = s ∧ s.retry = run s.yard.queue.length
       ∧ ∀ i h, s.yard.queue[i]? = some h →
           let u := run i
           (u.named h = none → run (i + 1) = u)
           ∧ ∀ x, u.named h = some x →
               (u.place h.slot = none → run (i + 1) = u)
               ∧ ∀ t, u.place h.slot = some t → run (i + 1) =
                   ({ t with yard := { t.yard with queue := t.yard.queue.filter (· != h) } } : State).enterDirecting
                     x.lane h.slot)

/-- R176, R177: LEG_DONE for a leg that the visit does not have is refused with BAD_PARAM, and for a visit not
EN_ROUTE or a leg that is DROPPED, without destination or done already with WRONG_STATE; otherwise the leg's done mark
is set and its destination converted by its case: a drop leg's TEU moves from reserved to occupied (at most 4000), a
pickup leg's leaves occupied, an inspection leg leaves its bay. A retry of the yard-wait queue follows (R173, R174), and
the signs may start the jobs that become due. The answer carries the leg's disposition, destination and done mark, and a
block's counts as they stand after the retry; its layout is the model's choice (notes/assumptions/10). -/
def Obligations.LegDoneConvertsTheDestination : Prop :=
  ∀ (s : State) (f : ReqFrame) (rest : List ReqFrame) (v : Fin 64) (x : Visit) (i : Nat), s.Ready 0x3C#8 f rest →
    s.visit v = some x → i < 256 → f.fields = e1 v.val ++ e1 (s.visits[v]).gen.val ++ e1 i →
    ((i = 0 ∨ 2 < i ∨ x.legs.length < i) → exec .legDone s = .next ((s.taken rest).answered f .badParam []))
    ∧ ∀ l : Leg, (i = 1 ∨ i = 2) → x.legs[i - 1]? = some l →
        ((x.state ≠ .enRoute ∨ (l.disposition ≠ .yard ∧ l.disposition ≠ .inspect) ∨ l.dest = none ∨ l.done = true) →
          exec .legDone s = .next ((s.taken rest).answered f .wrongState []))
        ∧ (x.state = .enRoute → (l.disposition = .yard ∨ l.disposition = .inspect) → l.done = false →
            let marked : Vector VisitSlot 64 := s.visits.set v { s.visits[v] with
              visit := some { x with legs := x.legs.set (i - 1) { l with done := true } } }
            let becomes (yard : Yard) (place : List Byte) (counts : Yard → List Byte) : Prop := ∃ t : State,
              let w := ({ s.taken rest with visits := marked, yard := yard } : State).retry
              exec .legDone s = .next (t.answered f .ok
                (e1 l.disposition.code ++ 0x01#8 :: place ++ [0x01#8] ++ counts t.yard))
              ∧ t = { w with signs := t.signs } ∧ SignsMayStart w t
            let teu := l.teu.getD 0
            (∀ b : Fin 48, l.dest = some (.block b) →
              let old := s.yard.blocks[b]
              let counts (y : Yard) : List Byte := 0x01#8 :: e2 y.blocks[b].capacity
                  ++ 0x01#8 :: e2 y.blocks[b].occupied
                ++ 0x01#8 :: e2 y.blocks[b].reserved ++ 0x01#8 :: e2signed
                  ((y.blocks[b].capacity : Int) - y.blocks[b].occupied - y.blocks[b].reserved)
              (l.kind.any Kind.isDrop = true → becomes { s.yard with blocks := s.yard.blocks.set b { old with
                  reserved := old.reserved - teu, occupied := min 4000 (old.occupied + teu) } }
                  (0x00#8 :: e1 b.val) counts)
              ∧ (l.kind.any Kind.isDrop = false → becomes { s.yard with blocks := s.yard.blocks.set b { old with
                  occupied := old.occupied - teu } } (0x00#8 :: e1 b.val) counts))
            ∧ ∀ b : Fin 4, l.dest = some (.bay b) → becomes { s.yard with
                bays := s.yard.bays.set b { s.yard.bays[b] with
                  places := s.yard.bays[b].places.filter (· != ⟨s.handle v, i⟩) } } (0x01#8 :: e1 b.val)
                fun _ => [0x00#8, 0x00#8, 0x00#8, 0x00#8])

/-! ### The Sign Units (R183 to R199) -/

/-- R198: SIGN_SET replaces each given value, the desk route normalised and cut to 20 characters, reports the Sign
Unit as the request leaves it, and with YES sets its fault count to 0 after the report; with nothing given and no job
due it changes nothing else. R199: a change of class or effective mode abandons the job and makes every mirror entry
of the new class UNKNOWN; then a display not OFF starts a job of every line; a DIRECTING visit not yet reported has
its directions sent or its ticket printed again, and OFF reports them. The signs may start the jobs that become due.
The layout of the request and of its answer (notes/assumptions/10) and the print due mark of a change
(notes/assumptions/13) are the model's choice, and so are the 10 entries of a TICKET's mirror (notes/assumptions/24). -/
def Obligations.SignSetReadsOrReplacesTheSettings : Prop :=
  ∀ (s : State) (f : ReqFrame) (rest : List ReqFrame) (n : Lane) (cls : Option SignClass) (mode : Option SendMode)
    (desk : Option (List Byte)) (clear : Bool), s.Ready 0x40#8 f rest → (∀ t ∈ desk, t.length < 256) →
    f.fields = laneByte n :: (eOpt (fun c : SignClass => e1 c.code) cls ++ eOpt (fun m : SendMode => e1 m.code) mode
      ++ eOpt eRaw desk ++ [if clear then 0x00#8 else 0x01#8]) →
    let old := s.sign n
    let g : Sign := { old with
      cls := cls.getD old.cls
      mode := mode.getD old.mode
      desk := (desk.map fun t => (normalise t).take 20).getD old.desk }
    let effective (k : Sign) : SendMode := if k.cls = .ticket then .once else k.mode
    let switches : Prop := g.cls ≠ old.cls ∨ effective g ≠ effective old
    let directing (v : Fin 64) (x : Visit) : Prop := s.Resident n v x ∧ x.state = .directing
    let unreported : Prop := old.reportMark = false ∧ ∃ v x, directing v x
    let put (k : Sign) : State := { s.taken rest with signs := s.signs.set n k }
    let cleared (k : Sign) : Sign := if clear then { k with faults := 0 } else k
    let line (l : Line) : List Byte := eList eText l
    let job (k : Sign) : List Byte := match k.job with
      | .sending j => 0x01#8 :: 0x01#8 :: e1 j.first ++ 0x01#8 :: e1 (j.first + j.lines.length - 1) ++ 0x01#8 :: e1 j.awaited
      | .idle => [0x00#8, 0x00#8, 0x00#8, 0x00#8]
      | .hold => [0x02#8, 0x00#8, 0x00#8, 0x00#8]
    let report (k : Sign) : List Byte := e1 k.cls.code ++ e1 k.mode.code ++ e1 (effective k).code ++ eText k.desk
      ++ eList (eOpt line) k.mirror ++ job k ++ eFlag k.printDue ++ e1 k.seq ++ e2 k.reply ++ e2 k.faults
    let answers (t : State) : Prop := exec .signSet s =
      .next (({ t with signs := t.signs.set n (cleared (t.sign n)) } : State).answered f .ok (report (t.sign n)))
    let becomes (w : State) (job : Sign → Prop) : Prop :=
      ∃ t : State, answers t ∧ t = { w with signs := t.signs } ∧ SignsMayStart w t ∧ job (t.sign n)
    let every (k : Sign) : Prop := ∃ j, k.job = .sending j ∧ j.first = 1 ∧ j.awaited = 1 ∧ j.lines = content (put g) n
    (¬ switches → becomes (put g) fun _ => True)
    ∧ (cls = none → mode = none → desk = none → (∀ m : Lane, (s.sign m).job = .idle → jobDue s m false = none) →
        answers (s.taken rest))
    ∧ (switches → ¬ unreported → becomes (put g.abandoned) fun k =>
        if g.cls ≠ .ticket ∧ g.mode ≠ .off then every k ∧ ∀ v x, directing v x → ∀ j, k.job = .sending j →
          j.directions = true ∧ j.subject = some (s.handle v) else k.job = .idle)
    ∧ ∀ v x, switches → directing v x → old.reportMark = false →
        (g.cls ≠ .ticket → g.mode ≠ .off → becomes (put g.abandoned) fun k =>
          every k ∧ ∀ j, k.job = .sending j → j.directions = true ∧ j.subject = some (s.handle v))
        ∧ (g.cls = .ticket → becomes (put { g.abandoned with printDue := true }) fun k =>
          every k ∧ k.printDue = false ∧ ∀ j, k.job = .sending j → j.directions = true ∧ j.subject = some (s.handle v))
        ∧ (g.cls ≠ .ticket → g.mode = .off → becomes { put { g.abandoned with reportMark := true } with
            lanes := s.lanes.set n { s.lane n with
              exitSeen := s.loops[n].exit, dwell := ⟨.repeating, (s.lane n).limits.clear, .clear, 0⟩ }
            visits := s.visits.set v { s.visits[v] with
              visit := some { x with state := .releasing, holdStart := none, timeoutDue := false } } } fun k =>
          k.job = .idle)

/-- R189, R192, R193: a reply that is not the awaited one changes no Sign Unit's job; an ACCEPT of the awaited line
stores the words in the mirror, and sends the next line, with the final mark on the last line of a ticket, or, after
the last, ends the job; a REFUSE, or the expiry of the reply timer, fails the job: HOLD, the whole mirror UNKNOWN, the
fault count up by 1, and the visit that the subject names marked. The end and the failure of a job are here for a lane
with no visit in DIRECTING, and in DirectionsAreReportedOnce for one with such a visit; every other clause is for
every lane. R194: a refresh event does nothing to a display that is SENDING, sends a KEEPALIVE on a quiet ONCE display
and the whole content on a quiet REPEAT one, ends a HOLD, after which the job due starts (every line on a display
whose mirror is UNKNOWN), and does nothing at a TICKET or an OFF sign with no job. A timer expiry or a refresh event
that is not due is a command with no effect: the model's choice (notes/assumptions/4), as are a SIGN_REPLY of one whole
frame (notes/assumptions/7) and the 10 entries of a TICKET's mirror (notes/assumptions/24). -/
def Obligations.SignJobsFollowRepliesAndRefreshEvents : Prop :=
  (∀ (s : State) (n : Lane) (j : Job), s.prst = false → (s.sign n).job = .sending j →
     let g := s.sign n
     let reply (verdict : Byte) (seq line : Nat) : List RxChar :=
       (serialBytes ⟨0x21#8, [BitVec.ofNat 8 seq, BitVec.ofNat 8 line, verdict]⟩).map fun b => ⟨b, false⟩
     (∀ (verdict : Byte) (seq line : Nat), seq < 256 → line < 256 → (seq ≠ j.seq ∨ line ≠ j.awaited) → ∃ t : State,
       exec (.signReply n (reply verdict seq line)) s = .next t ∧ t = { s with signs := t.signs } ∧ SignsMayStart s t)
     ∧ (j.seq < 256 → j.awaited < 256 → j.awaited + 1 < j.first + j.lines.length → ∃ t : State,
         exec (.signReply n (reply 0x00#8 j.seq j.awaited)) s = .next t
         ∧ t = { s with signs := t.signs } ∧ (∀ m : Lane, m ≠ n → (s.sign m).MayStart (t.sign m))
         ∧ t.sign n = { g with
             mirror := g.mirror.set (j.awaited - 1) (some (j.lines.getD (j.awaited - j.first) []))
             job := .sending { j with awaited := j.awaited + 1, seq := g.seq }
             seq := (g.seq + 1) % 256
             reply := (s.lane n).limits.signReply
             replyDue := false
             sent := g.sent ++ [.line g.seq (j.awaited + 1)
               (decide (g.cls = .ticket ∧ j.awaited + 2 = j.first + j.lines.length))
               (j.lines.getD (j.awaited + 1 - j.first) [])] })
     ∧ (g.replyDue = false → exec (.replyTimerExpiry n) s = .next s)
     ∧ ((s.lane n).refreshDue = 0 → exec (.refreshEvent n) s = .next s)
     ∧ (0 < (s.lane n).refreshDue → exec (.refreshEvent n) s = .next
         { s with lanes := s.lanes.set n { s.lane n with refreshDue := (s.lane n).refreshDue - 1 } })
     ∧ ((∀ v x, s.Resident n v x → x.state ≠ .directing) →
         let failed (a : Instr) : Prop := ∃ t : State, exec a s = .next t
           ∧ t.sign n = { g with
               job := .hold, reply := 0, replyDue := false, mirror := List.replicate g.cls.count none
               faults := min 65535 (g.faults + 1) }
           ∧ (∀ m : Lane, m ≠ n → (s.sign m).MayStart (t.sign m))
           ∧ (∀ h x, j.subject = some h → s.named h = some x → t.link.changes = joinList (.visit h.slot) s.link.changes
               ∧ t.visits = s.visits.set h.slot { s.visits[h.slot] with visit := some { x with signFault := true } })
           ∧ ((∀ h, j.subject = some h → s.named h = none) → t.link.changes = s.link.changes ∧ t.visits = s.visits)
           ∧ t = { s with link := { s.link with changes := t.link.changes }, visits := t.visits, signs := t.signs }
         (j.seq < 256 → j.awaited < 256 → j.first + j.lines.length ≤ j.awaited + 1 →
             let w : State := { s with signs := s.signs.set n { g with
               job := .idle
               reply := 0
               replyDue := false
               mirror := g.mirror.set (j.awaited - 1) (some (j.lines.getD (j.awaited - j.first) [])) } }
             ∃ t : State, exec (.signReply n (reply 0x00#8 j.seq j.awaited)) s = .next t ∧ t = { w with signs := t.signs }
               ∧ SignsMayStart w t)
         ∧ (j.seq < 256 → j.awaited < 256 → failed (.signReply n (reply 0x01#8 j.seq j.awaited)))
         ∧ (g.replyDue = true → failed (.replyTimerExpiry n))))
  ∧ (∀ (s : State) (n : Lane), s.prst = false → 0 < (s.lane n).refreshDue →
       let spent : State := { s with
         lanes := s.lanes.set n { s.lane n with refreshDue := (s.lane n).refreshDue - 1 } }
       let g := s.sign n
       (g.job = .idle → g.cls ≠ .ticket → g.mode = .once → exec (.refreshEvent n) s =
           .next { spent with signs := s.signs.set n { g with sent := g.sent ++ [.keepalive] } })
       ∧ (g.job = .idle → (g.cls = .ticket ∨ g.mode = .off) → exec (.refreshEvent n) s = .next spent)
       ∧ (g.job = .hold → (g.cls = .ticket ∧ g.printDue = false ∨ g.cls ≠ .ticket ∧ g.mode = .off) →
           exec (.refreshEvent n) s = .next { spent with signs := s.signs.set n { g with job := .idle } })
       ∧ (g.job = .hold →
           let w : State := { spent with signs := s.signs.set n { g with job := .idle } }
           ∃ t : State, exec (.refreshEvent n) s = .next t ∧ t = { w with signs := t.signs } ∧ SignsMayStart w t
             ∧ (∀ m : Lane, m ≠ n → t.sign m = s.sign m)
             ∧ (g.cls ≠ .ticket → g.mode ≠ .off → g.mirror = List.replicate g.cls.count none → ∃ job,
                 (t.sign n).job = .sending job ∧ job.first = 1 ∧ job.awaited = 1 ∧ job.lines = content s n)
             ∧ (g.cls = .ticket → g.printDue = true → ∃ job, (t.sign n).job = .sending job ∧ job.first = 1
                 ∧ job.awaited = 1 ∧ job.lines = content s n ∧ (t.sign n).printDue = false))
       ∧ (g.job = .idle → g.cls ≠ .ticket → g.mode = .repeating → ∃ (t : State) (job : Job),
           exec (.refreshEvent n) s = .next t ∧ (t.sign n).job = .sending job ∧ job.first = 1 ∧ job.awaited = 1
           ∧ job.lines = content s n ∧ (∀ m : Lane, m ≠ n → t.sign m = s.sign m)
           ∧ t = { spent with signs := t.signs }))

/-- R184: the width of a line, and its truncation: the words that fit are kept, the first that does not is cut to the
columns left after its gap, and the rest are dropped. R185 to R187: the content of a display by the lane's state and
the state of its visit, filled with blank lines; the directions, with the leg lines of drop legs first; and the
ticket, which is empty but for a visit in DIRECTING. R188, R190 to R192: the job that is due is the range from the
first to the last differing line in ONCE, every line in REPEAT, none in OFF, and the whole ticket at a print due mark;
where it starts, its first line is sent, its subject is the resident visit or the abort subject, and its directions
mark says whether the content is directions of that visit. -/
def Obligations.SignContentAndJobsFollowTheTables : Prop :=
  (∀ (w : Nat) (line : Line),
     lineWidth line = (line.map List.length).sum + (line.length - 1)
     ∧ (lineWidth line ≤ w → truncLine w line = line)
     ∧ ∀ (kept rest : Line) (word : Text), line = kept ++ word :: rest → 0 < w → lineWidth kept ≤ w →
         w < lineWidth (kept ++ [word]) →
         let left := if kept = [] then w else w - (lineWidth kept + 1)
         truncLine w line = kept ++ if left = 0 then [] else [word.take left])
  ∧ (∀ (s : State) (n : Lane),
       let g := s.sign n
       let width : Nat := match g.cls with | .line2 => 16 | .line4 => 20 | .ticket => 32
       let shows (lines : List Line) : Prop := content s n =
         ((lines ++ List.replicate g.cls.count []).take g.cls.count).map (truncLine width)
       let number := digits2 (n.val + 1)
       let lane (word : Text) : Line := [Text.of "LANE", number, word]
       let away : List Line := [[Text.of "SEE", Text.of "GATE", Text.of "OFFICE"], if g.desk = [] then [] else [g.desk]]
       let words : Option Dest → Line
         | some (.block b) => [Text.of "BLOCK", s.yard.blocks[b].code.getD []]
         | some (.bay b) => [Text.of "BAY", s.yard.bays[b].code]
         | none => []
       let route : Option Dest → Text
         | some (.block b) => s.yard.blocks[b].route.getD []
         | some (.bay b) => s.yard.bays[b].route
         | none => []
       let legLine (l : Leg) : Line :=
         if route l.dest ≠ [] ∧ lineWidth (words l.dest ++ [route l.dest]) ≤ width then words l.dest ++ [route l.dest]
         else words l.dest
       let directed (x : Visit) (drop : Bool) : List Leg := x.legs.filter fun l =>
         (l.disposition == .yard || l.disposition == .inspect) && l.dest.isSome && l.kind.any Kind.isDrop == drop
       let legs (x : Visit) : List Leg := directed x true ++ directed x false
       let plate (x : Visit) : Line := match x.plate with | some p => [p.text] | none => [Text.of "LANE", number]
       (g.cls ≠ .ticket →
         (s.laneState n = .idle → (s.lane n).mode = .auto → shows [lane (Text.of "OPEN")])
         ∧ (s.laneState n = .idle → (s.lane n).mode = .manual → shows [lane (Text.of "STAFFED")])
         ∧ (s.laneState n = .blocked → shows [lane (Text.of "WAIT")])
         ∧ (s.laneState n = .closed → shows [lane (Text.of "CLOSED")])
         ∧ (s.laneState n = .releasing → shows away)
         ∧ ∀ v x, s.Resident n v x →
             (x.state = .entering → shows [[Text.of "DRIVE", Text.of "TO"], [Text.of "STOP", Text.of "LINE"]])
             ∧ (x.state = .checking → shows [[Text.of "PLEASE", Text.of "WAIT"]])
             ∧ (x.state = .held ∨ x.state = .yardWait →
                 shows [[Text.of "PLEASE", Text.of "WAIT"], [Text.of "GATE", Text.of "CLERK"]])
             ∧ (x.state = .directing ∨ x.state = .releasing ∧ x.outcome = some .admission →
                 (g.cls = .line2 → 2 ≤ (legs x).length → shows ((legs x).map legLine))
                 ∧ (g.cls = .line4 ∨ (legs x).length < 2 → shows (plate x :: (legs x).map legLine)))
             ∧ (x.state = .releasing → x.outcome ≠ some .admission → shows away))
       ∧ (g.cls = .ticket →
         (∀ v x, s.Resident n v x → x.state = .directing → content s n = (plate x :: (legs x).flatMap fun l =>
           [[Text.of "BOOKING", l.ref], legLine l]).map (truncLine 32))
         ∧ ((∀ v x, s.Resident n v x → x.state ≠ .directing) → content s n = []))
       ∧ (let lines := content s n
          let effective : SendMode := if g.cls = .ticket then .once else g.mode
          let differs (k : Nat) : Prop := ∃ l, lines[k]? = some l ∧ g.mirror[k]? ≠ some (some l)
          let starts (first : Nat) (job : List Line) : Prop := ∃ (subject : Option Handle) (directions : Bool),
            s.startJobs.sign n = g.sending (s.lane n).limits.signReply first job subject directions
              (g.cls == .ticket && job.length == 1)
            ∧ (∀ v, (s.lane n).resident = some v → subject = some (s.handle v))
            ∧ ((s.lane n).resident = none → subject = g.abortSubject)
            ∧ (directions = true ↔ ∃ v x, s.Resident n v x ∧ (x.state = .directing
                ∨ g.cls ≠ .ticket ∧ x.state = .releasing ∧ x.outcome = some .admission))
          s.startJobs = { s with signs := s.startJobs.signs }
          ∧ (g.job ≠ .idle → s.startJobs.sign n = g)
          ∧ (g.job = .idle → g.cls ≠ .ticket → g.mirror.length = g.cls.count →
              (g.mode = .off ∨ (∀ k, ¬ differs k) → s.startJobs.sign n = g)
              ∧ (g.mode = .once → ∀ a b, a ≤ b → differs a → differs b → (∀ k, differs k → a ≤ k ∧ k ≤ b) →
                  starts (a + 1) ((lines.take (b + 1)).drop a))
              ∧ (g.mode = .repeating → (∃ k, differs k) → starts 1 lines))
          ∧ (g.job = .idle → g.cls = .ticket →
              (g.printDue = true → starts 1 lines) ∧ (g.printDue = false → s.startJobs.sign n = g))))

/-- R78, R79, R187, R195: a visit enters DIRECTING with its dwell timer stopped, the report mark clear and, on a
TICKET lane, the print due mark set; the directions are reported at once where the effective mode is OFF (case 3), or
the display is quiet and shows them already (case 4). A completed job reports them where it carried the directions of
that visit (case 1), or left the display showing them (case 4); a failed job does where its subject is that visit
(case 2). At the report the visit is RELEASING and the report mark is set, so that a visit is reported once; and with
no report it stays in DIRECTING. The signs may start the jobs that become due. A TICKET's mirror has 10
entries: the model's choice (notes/assumptions/24). -/
def Obligations.DirectionsAreReportedOnce : Prop :=
  ∀ (s : State) (n : Lane) (v : Fin 64) (x : Visit), s.Resident n v x →
    (s.sign n).mirror.length = (s.sign n).cls.count →
    let g := s.sign n
    let shown (u : State) (k : Sign) : Prop := k.cls ≠ .ticket ∧ k.job = .idle
      ∧ ∀ (i : Nat) (l : Line), (content u n)[i]? = some l → k.mirror[i]? = some (some l)
    let put (u : State) (k : Sign) (y : Visit) : State := { u with
      visits := s.visits.set v { s.visits[v] with visit := some y }
      signs := u.signs.set n k }
    let reported (u : State) (k : Sign) (y : Visit) : State :=
      { put u { k with reportMark := true, printDue := false }
          { y with state := .releasing, holdStart := none, timeoutDue := false } with
        lanes := s.lanes.set n { s.lane n with
          exitSeen := s.loops[n].exit, dwell := ⟨.repeating, (s.lane n).limits.clear, .clear, 0⟩ } }
    (let k : Sign := { g with reportMark := false, printDue := g.cls == .ticket }
     let y : Visit := { x with state := .directing, holdStart := none }
     let u : State := { s with lanes := s.lanes.set n { s.lane n with dwell := .stopped } }
     let w := put u k y
     (g.cls ≠ .ticket ∧ g.mode = .off ∨ shown w k → s.enterDirecting n v = reported u k y)
     ∧ (¬ (g.cls ≠ .ticket ∧ g.mode = .off ∨ shown w k) → s.enterDirecting n v = w))
    ∧ ∀ j : Job, s.prst = false → x.state = .directing → g.job = .sending j → j.seq < 256 → j.awaited < 256 →
        let reply (verdict : Byte) : Instr := .signReply n ((serialBytes ⟨0x21#8,
          [BitVec.ofNat 8 j.seq, BitVec.ofNat 8 j.awaited, verdict]⟩).map fun b => ⟨b, false⟩)
        let becomes (a : Instr) (w : State) : Prop :=
          ∃ t : State, exec a s = .next t ∧ t = { w with signs := t.signs } ∧ SignsMayStart w t
        let own : Prop := j.subject = some (s.handle v)
        let done : Sign := { g with
          job := .idle
          reply := 0
          replyDue := false
          mirror := g.mirror.set (j.awaited - 1) (some (j.lines.getD (j.awaited - j.first) [])) }
        let failed : Sign := { g with
          job := .hold, reply := 0, replyDue := false, mirror := List.replicate g.cls.count none
          faults := min 65535 (g.faults + 1) }
        let joined : State := { s with link := { s.link with changes := joinList (.visit v) s.link.changes } }
        (j.first + j.lines.length ≤ j.awaited + 1 →
          (g.reportMark = false → own ∧ j.directions = true ∨ shown (put s done x) done →
            becomes (reply 0x00#8) (reported s done x))
          ∧ (g.reportMark = true ∨ ¬ (own ∧ j.directions = true ∨ shown (put s done x) done) →
            becomes (reply 0x00#8) (put s done x)))
        ∧ ∀ a : Instr, a = reply 0x01#8 ∨ a = .replyTimerExpiry n ∧ g.replyDue = true →
            (own → g.reportMark = false → becomes a (reported joined failed { x with signFault := true }))
            ∧ (own → g.reportMark = true → becomes a (put joined failed { x with signFault := true }))
            ∧ ((∀ h, j.subject = some h → s.named h = none) → becomes a (put s failed x))
            ∧ ∀ h z, j.subject = some h → h ≠ s.handle v → s.named h = some z → becomes a { put s failed x with
                link := { s.link with changes := joinList (.visit h.slot) s.link.changes }
                visits := s.visits.set h.slot { s.visits[h.slot] with visit := some { z with signFault := true } } }

/-! ### Every command, and the invariants -/

/-- Every command answers a next state, in every state, and leaves the queue of the commands behind it as it is: the
manual gives each an effect, or none, wherever it comes. That a command which is not due has no effect is the model's
choice (notes/assumptions/4), and so is that the commands behind a POWER_ON keep waiting (notes/assumptions/5). -/
def Obligations.EveryCommandCompletesAndLeavesTheQueue : Prop :=
  ∀ (c : Instr) (s : State), ∃ t : State, exec c s = .next t ∧ t.pending = s.pending

/-- R217 with R213, R203, R25, R1, R6, R58, R27, R182 and R191: the state after the power-on event has the invariants of
the time base, the Server Link, the window ring, the Booking Book with its index, the lanes, the window counts, the yard
and the Sign Units. -/
def Obligations.ResetHasTheInvariants : Prop :=
  State.reset.time.Kept ∧ State.reset.link.Kept ∧ State.reset.ring.Kept ∧ State.reset.book.Kept
    ∧ State.reset.book.Indexed ∧ State.reset.Seated ∧ State.reset.Counted ∧ State.reset.YardKept ∧ State.reset.SignsKept

/-- R213 to R216, R201 to R207, R25 to R30: every step keeps the time base in its ranges; the Server Link's bounds, at
most 16 frames in each queue, a place for the response of the request in execution, and no item twice in the change
set; and the ring's, at most 96 windows whose starts rise by the length of the plan. -/
def Obligations.StepKeepsTheTimeBaseTheLinkAndTheRing : Prop :=
  ∀ s t : State, step s = .next t →
    (s.time.Kept → t.time.Kept) ∧ (s.link.Kept → t.link.Kept) ∧ (s.ring.Kept → t.ring.Kept)

/-- R1, R3, R12 to R22, R92: every step keeps the book's records in slots 0 to 8191, each once, its live count at their
number and its NO_SHOW count at the number of those in NO_SHOW. -/
def Obligations.StepKeepsTheBook : Prop :=
  ∀ s t : State, step s = .next t → s.book.Kept → t.book.Kept

/-- R6 to R8: every step, the insertion of a BOOK_CREATE and the deletion with its backward shift among them, keeps the
booking index whole: every live booking is found by a lookup of its reference, and the index holds nothing else. -/
def Obligations.StepKeepsTheIndex : Prop :=
  ∀ s t : State, step s = .next t → s.book.Kept → s.book.Indexed → t.book.Indexed

/-- R60 to R64, R71, R79, R83 to R88: every step keeps each lane's resident visit an open visit of that lane, in a
lane-resident state, so that no visit is resident on two lanes. -/
def Obligations.StepKeepsTheLanesVisits : Prop :=
  ∀ s t : State, step s = .next t → s.Seated → t.Seated

/-- R27 with R3, R12 to R15, R19, R20, R22, R28, R30, R36 and R92: every step keeps the window counts: for each window
in the ring and each kind, booked is the number of live bookings of that window and kind and arrived the number of
those in ADMITTED, and a booking's window is in the ring. -/
def Obligations.StepKeepsTheWindowCounts : Prop :=
  ∀ s t : State, step s = .next t → s.ring.Kept → s.book.Kept → s.Counted → t.Counted

/-- R150, R162, R166, R168, R172 to R180: every step keeps the yard: each block's reserved TEU is the sum over the
open visits' drop legs in YARD directed to it and not done, a bay's places are the INSPECT legs destined to it and not
done, each once and at most 2, a visit that waits, is held or is still checked holds none, and the yard-wait queue
names at most 12 visits in YARD_WAIT, each once. The last premise is about the completion of an identification alone:
its handle, if it names a lane-resident visit, names one still under review. It can fail only where the visit's slot
was freed and opened again sixteen times while the operation was in flight, since R61's handle then names a later
visit. -/
def Obligations.StepKeepsTheYard : Prop :=
  ∀ s t : State, step s = .next t → s.Seated → s.YardKept →
    (∀ rest, s.pending = .identificationComplete :: rest → s.IdentifiesInTime) → t.YardKept

/-- R191 with R184, R188 and R190: a job starts at the end of any event after which it is due: every step leaves no idle
Sign Unit with a job due, and keeps each mirror at the number of lines of its class. A TICKET's mirror has 10
entries: the model's choice (notes/assumptions/24). -/
def Obligations.StepKeepsTheSigns : Prop :=
  ∀ s t : State, step s = .next t → s.SignsKept → t.SignsKept
end

