-- ==== Sys2Proof/Laws/Fields.lean ====
section
/-!
SUPPORT. Decoding what the encoding of R219 writes: one lemma per decoder. Each says that the decoder reads back, from the
front of a field list, the value that its encoder wrote there, and leaves the rest.
-/

namespace Sys2Proof.Machine

variable {α β : Type}

/-- A decoder followed by another reads the two values one after the other. -/
theorem run_bind (d : Dec α) (k : α → Dec β) (bytes : List Byte) :
    (d >>= k).run bytes = (d.run bytes).bind fun p => (k p.1).run p.2 := rfl

/-- A decoder that answers a value reads nothing. -/
theorem run_pure (a : α) (bytes : List Byte) : (pure a : Dec α).run bytes = some (a, bytes) := rfl

@[simp] theorem run_dFail (bytes : List Byte) : (dFail : Dec α).run bytes = none := rfl

/-- Decoding a whole list, from what the decoder reads at its front. -/
theorem decodeAll_of_run {d : Dec α} {bytes : List Byte} {a : α} (h : d.run bytes = some (a, [])) :
    decodeAll d bytes = some a := by
  simp [decodeAll, h]

/-- Bytes left over make the fields undecodable (R204). -/
theorem decodeAll_of_left {d : Dec α} {bytes left : List Byte} {a : α} (h : d.run bytes = some (a, left))
    (hl : left ≠ []) : decodeAll d bytes = none := by
  cases left with
  | nil => exact absurd rfl hl
  | cons b bs => simp [decodeAll, h]

theorem run_d1 (n : Nat) (rest : List Byte) (h : n < 256) : d1.run (e1 n ++ rest) = some (n, rest) := by
  simp only [d1, e1, StateT.run, List.cons_append, List.nil_append, BitVec.toNat_ofNat]
  rw [Nat.mod_eq_of_lt h]

theorem run_d2 (n : Nat) (rest : List Byte) (h : n < 65536) : d2.run (e2 n ++ rest) = some (n, rest) := by
  simp only [d2, e2, StateT.run, List.cons_append, List.nil_append, BitVec.toNat_ofNat]
  congr 2
  omega

theorem run_d4 (n : Nat) (rest : List Byte) (h : n < 4294967296) : d4.run (e4 n ++ rest) = some (n, rest) := by
  have hi : n / 65536 < 65536 := by omega
  have lo : e2 n = e2 (n % 65536) := by
    simp only [e2, List.cons.injEq, and_true]
    constructor <;> apply BitVec.eq_of_toNat_eq <;> simp only [BitVec.toNat_ofNat] <;> omega
  have hn : n / 65536 * 65536 + n % 65536 = n := by omega
  rw [show d4 = (d2 >>= fun hi => d2 >>= fun lo => pure (hi * 65536 + lo)) from rfl, run_bind, e4, lo,
    List.append_assoc, run_d2 _ _ hi]
  simp only [Option.bind_some]
  rw [run_bind, run_d2 _ _ (Nat.mod_lt _ (by decide))]
  simp only [Option.bind_some, run_pure, hn]

theorem run_d2signed (n : Int) (rest : List Byte) (h : -32768 ≤ n ∧ n < 32768) :
    d2signed.run (e2signed n ++ rest) = some (n, rest) := by
  have hm : (n % 65536).toNat < 65536 := by omega
  rw [show d2signed = (d2 >>= fun n => pure (if n < 32768 then (n : Int) else (n : Int) - 65536)) from rfl, run_bind,
    e2signed, run_d2 _ _ hm]
  simp only [Option.bind_some, run_pure, Option.some.injEq, Prod.mk.injEq, and_true]
  split <;> omega

/-- An optional field, from its value's encoding. -/
theorem run_dOpt (d : Dec α) (e : α → List Byte) (v : Option α) (rest : List Byte)
    (h : ∀ a, v = some a → ∀ r, d.run (e a ++ r) = some (a, r)) : (dOpt d).run (eOpt e v ++ rest) = some (v, rest) := by
  cases v with
  | none => rfl
  | some a =>
    rw [show (eOpt e (some a) ++ rest) = 0x01#8 :: (e a ++ rest) from rfl]
    change ((d >>= fun a => pure (some a)) : Dec (Option α)).run (e a ++ rest) = _
    rw [run_bind, h a rfl]
    rfl

theorem run_dOpt_d1 (v : Option Nat) (rest : List Byte) (h : ∀ n ∈ v, n < 256) :
    (dOpt d1).run (eOpt e1 v ++ rest) = some (v, rest) :=
  run_dOpt _ _ _ _ fun a ha r => run_d1 a r (h a ha)

theorem run_dOpt_d2 (v : Option Nat) (rest : List Byte) (h : ∀ n ∈ v, n < 65536) :
    (dOpt d2).run (eOpt e2 v ++ rest) = some (v, rest) :=
  run_dOpt _ _ _ _ fun a ha r => run_d2 a r (h a ha)

theorem run_dOpt_d4 (v : Option Nat) (rest : List Byte) (h : ∀ n ∈ v, n < 4294967296) :
    (dOpt d4).run (eOpt e4 v ++ rest) = some (v, rest) :=
  run_dOpt _ _ _ _ fun a ha r => run_d4 a r (h a ha)

theorem run_dOpt_d2signed (v : Option Int) (rest : List Byte) (h : ∀ n ∈ v, -32768 ≤ n ∧ n < 32768) :
    (dOpt d2signed).run (eOpt e2signed v ++ rest) = some (v, rest) :=
  run_dOpt _ _ _ _ fun a ha r => run_d2signed a r (h a ha)

/-- An enumeration value at its place in the list. -/
theorem run_dEnum (values : List α) (n : Nat) (a : α) (rest : List Byte) (hv : values[n]? = some a) (h : n < 256) :
    (dEnum values).run (e1 n ++ rest) = some (a, rest) := by
  change (d1 >>= fun n => match values[n]? with | some a => pure a | none => dFail : Dec α).run _ = _
  rw [run_bind, run_d1 n rest h]
  simp only [Option.bind_some, hv, run_pure]

/-- A mask with no bit beyond its items. -/
theorem run_dMask (k n : Nat) (rest : List Byte) (hk : n < 2 ^ k) (h : n < 256) :
    (dMask k).run (e1 n ++ rest) = some (n, rest) := by
  change (d1 >>= fun m => if m < 2 ^ k then pure m else dFail : Dec Nat).run _ = _
  rw [run_bind, run_d1 n rest h]
  simp only [Option.bind_some, if_pos hk, run_pure]

theorem run_dHandle (v g : Nat) (rest : List Byte) (hv : v < 256) (hg : g < 256) :
    dHandle.run (e1 v ++ (e1 g ++ rest)) = some ((v, g), rest) := by
  change (d1 >>= fun v => d1 >>= fun g => pure (v, g) : Dec (Nat × Nat)).run _ = _
  rw [run_bind, run_d1 v _ hv]
  simp only [Option.bind_some, run_bind, run_d1 g rest hg, run_pure]

/-- A text as received: its count byte and its characters, normalised on arrival. -/
theorem run_dText (raw rest : List Byte) (h : raw.length < 256) :
    dText.run (e1 raw.length ++ (raw ++ rest)) = some (normalise raw, rest) := by
  change (d1 >>= fun n => dBytes n >>= fun bytes => pure (normalise bytes) : Dec Text).run _ = _
  rw [run_bind, run_d1 _ _ h]
  simp only [Option.bind_some, run_bind]
  simp only [dBytes, StateT.run, List.length_append, Nat.le_add_right, if_true, List.take_left', List.drop_left',
    Option.bind_some]
  rfl

/-! ### A decoder leaves what stands behind its fields -/

/-- What a decoder reads at the front of a list it reads with more bytes behind, which it leaves (R204). -/
def LeavesRest (d : Dec α) : Prop := ∀ b a r x, d.run b = some (a, r) → d.run (b ++ x) = some (a, r ++ x)

theorem leaves_pure (a : α) : LeavesRest (pure a : Dec α) := by
  intro b a' r x h
  simp only [run_pure, Option.some.injEq, Prod.mk.injEq] at *
  simp [h]

theorem leaves_bind {d : Dec α} {k : α → Dec β} (hd : LeavesRest d) (hk : ∀ a, LeavesRest (k a)) :
    LeavesRest (d >>= k) := by
  intro b a r x h
  rw [run_bind] at *
  cases hh : d.run b with
  | none => simp [hh] at h
  | some p => rw [hh] at h; rw [hd _ _ _ x hh]; exact hk _ _ _ _ x h

theorem leaves_fail : LeavesRest (dFail : Dec α) := by
  intro b a r x h
  simp at h

theorem leaves_d1 : LeavesRest d1 := by
  intro b a r x h
  rcases b with _ | ⟨c, b⟩ <;> simp_all [d1, StateT.run]

theorem leaves_d2 : LeavesRest d2 := by
  intro b a r x h
  rcases b with _ | ⟨c, _ | ⟨d, b⟩⟩ <;> simp_all [d2, StateT.run]

theorem leaves_dBytes (n : Nat) : LeavesRest (dBytes n) := by
  intro b a r x h
  simp only [dBytes, StateT.run] at *
  split at h
  · rename_i hn
    simp only [Option.some.injEq, Prod.mk.injEq] at h
    rw [if_pos (by simp; omega), List.take_append_of_le_length hn, List.drop_append_of_le_length hn, h.1, h.2]
  · simp at h

theorem leaves_d4 : LeavesRest d4 := leaves_bind leaves_d2 fun _ => leaves_bind leaves_d2 fun _ => leaves_pure _

theorem leaves_d2signed : LeavesRest d2signed := leaves_bind leaves_d2 fun _ => leaves_pure _

theorem leaves_dText : LeavesRest dText :=
  leaves_bind leaves_d1 fun _ => leaves_bind (leaves_dBytes _) fun _ => leaves_pure _

theorem leaves_dEnum (v : List α) : LeavesRest (dEnum v) :=
  leaves_bind leaves_d1 fun n => by
    cases v[n]? with
    | none => exact leaves_fail
    | some a => exact leaves_pure a

theorem leaves_dOpt {d : Dec α} (h : LeavesRest d) : LeavesRest (dOpt d) :=
  leaves_bind leaves_d1 fun n => by
    rcases n with _ | _ | n
    · exact leaves_pure _
    · exact leaves_bind h fun _ => leaves_pure _
    · exact leaves_fail

theorem leaves_dRepeat {d : Dec α} (h : LeavesRest d) : ∀ n, LeavesRest (dRepeat d n)
  | 0 => leaves_pure _
  | n + 1 => leaves_bind h fun _ => leaves_bind (leaves_dRepeat h n) fun _ => leaves_pure _

theorem leaves_ite {c : Prop} [Decidable c] {d e : Dec α} (h : LeavesRest d) (h' : LeavesRest e) :
    LeavesRest (if c then d else e) := by
  split <;> assumption

theorem leaves_dList {d : Dec α} (n : Nat) (h : LeavesRest d) : LeavesRest (dList n d) :=
  leaves_bind leaves_d1 fun _ => leaves_ite (leaves_dRepeat h _) leaves_fail

theorem leaves_dMask (n : Nat) : LeavesRest (dMask n) :=
  leaves_bind leaves_d1 fun _ => leaves_ite (leaves_pure _) leaves_fail

theorem leaves_dHandle : LeavesRest dHandle :=
  leaves_bind leaves_d1 fun _ => leaves_bind leaves_d1 fun _ => leaves_pure _

theorem leaves_dChoice {d e : Dec α} (h : LeavesRest d) (h' : LeavesRest e) : LeavesRest (dChoice d e) :=
  leaves_bind leaves_d1 fun n => by
    rcases n with _ | _ | n
    · exact h
    · exact h'
    · exact leaves_fail

theorem leaves_dPlateChange : LeavesRest dPlateChange :=
  leaves_bind leaves_d1 fun n => by
    rcases n with _ | _ | _ | n
    · exact leaves_pure _
    · exact leaves_bind leaves_dText fun _ => leaves_pure _
    · exact leaves_pure _
    · exact leaves_fail

/-- Fields that decode do not decode with bytes after them. -/
theorem decodeAll_append {d : Dec α} (h : LeavesRest d) (b x : List Byte) (hx : x ≠ [])
    (hb : (decodeAll d b).isSome = true) : (decodeAll d (b ++ x)).isSome = false := by
  unfold decodeAll at hb
  rcases hd : d.run b with _ | ⟨a, _ | ⟨c, r⟩⟩
  · simp [hd] at hb
  · rw [decodeAll_of_left (h _ _ _ x hd) (by simpa using hx)]
    rfl
  · simp [hd] at hb

end Sys2Proof.Machine
end

