-- ==== Sys2Proof/Laws/State.lean ====
section
/-!
SUPPORT. The small lemmas of the record updates: one per field per update, true by rfl, and what the accessors read
after an update.
-/

namespace Sys2Proof.Machine

variable (s : State)

/-! ### The fields that a change of one Lane Unit leaves -/

@[simp] theorem modLane_pending (n : Lane) (f : LaneUnit → LaneUnit) : (s.modLane n f).pending = s.pending := rfl
@[simp] theorem modLane_prst (n : Lane) (f : LaneUnit → LaneUnit) : (s.modLane n f).prst = s.prst := rfl
@[simp] theorem modLane_lrst (n : Lane) (f : LaneUnit → LaneUnit) : (s.modLane n f).lrst = s.lrst := rfl
@[simp] theorem modLane_loops (n : Lane) (f : LaneUnit → LaneUnit) : (s.modLane n f).loops = s.loops := rfl
@[simp] theorem modLane_link (n : Lane) (f : LaneUnit → LaneUnit) : (s.modLane n f).link = s.link := rfl
@[simp] theorem modLane_time (n : Lane) (f : LaneUnit → LaneUnit) : (s.modLane n f).time = s.time := rfl
@[simp] theorem modLane_book (n : Lane) (f : LaneUnit → LaneUnit) : (s.modLane n f).book = s.book := rfl
@[simp] theorem modLane_engine (n : Lane) (f : LaneUnit → LaneUnit) : (s.modLane n f).engine = s.engine := rfl
@[simp] theorem modLane_ring (n : Lane) (f : LaneUnit → LaneUnit) : (s.modLane n f).ring = s.ring := rfl
@[simp] theorem modLane_openWait (n : Lane) (f : LaneUnit → LaneUnit) : (s.modLane n f).openWait = s.openWait := rfl
@[simp] theorem modLane_freeCount (n : Lane) (f : LaneUnit → LaneUnit) : (s.modLane n f).freeCount = s.freeCount := rfl
@[simp] theorem modLane_visits (n : Lane) (f : LaneUnit → LaneUnit) : (s.modLane n f).visits = s.visits := rfl
@[simp] theorem modLane_check (n : Lane) (f : LaneUnit → LaneUnit) : (s.modLane n f).check = s.check := rfl
@[simp] theorem modLane_grader (n : Lane) (f : LaneUnit → LaneUnit) : (s.modLane n f).grader = s.grader := rfl
@[simp] theorem modLane_yard (n : Lane) (f : LaneUnit → LaneUnit) : (s.modLane n f).yard = s.yard := rfl
@[simp] theorem modLane_signs (n : Lane) (f : LaneUnit → LaneUnit) : (s.modLane n f).signs = s.signs := rfl
@[simp] theorem modLane_free (n : Lane) (f : LaneUnit → LaneUnit) : (s.modLane n f).free = s.free := rfl

/-! ### The fields that a change of one Sign Unit leaves -/

@[simp] theorem modSign_pending (n : Lane) (f : Sign → Sign) : (s.modSign n f).pending = s.pending := rfl
@[simp] theorem modSign_prst (n : Lane) (f : Sign → Sign) : (s.modSign n f).prst = s.prst := rfl
@[simp] theorem modSign_lrst (n : Lane) (f : Sign → Sign) : (s.modSign n f).lrst = s.lrst := rfl
@[simp] theorem modSign_loops (n : Lane) (f : Sign → Sign) : (s.modSign n f).loops = s.loops := rfl
@[simp] theorem modSign_link (n : Lane) (f : Sign → Sign) : (s.modSign n f).link = s.link := rfl
@[simp] theorem modSign_time (n : Lane) (f : Sign → Sign) : (s.modSign n f).time = s.time := rfl
@[simp] theorem modSign_book (n : Lane) (f : Sign → Sign) : (s.modSign n f).book = s.book := rfl
@[simp] theorem modSign_engine (n : Lane) (f : Sign → Sign) : (s.modSign n f).engine = s.engine := rfl
@[simp] theorem modSign_ring (n : Lane) (f : Sign → Sign) : (s.modSign n f).ring = s.ring := rfl
@[simp] theorem modSign_lanes (n : Lane) (f : Sign → Sign) : (s.modSign n f).lanes = s.lanes := rfl
@[simp] theorem modSign_openWait (n : Lane) (f : Sign → Sign) : (s.modSign n f).openWait = s.openWait := rfl
@[simp] theorem modSign_freeCount (n : Lane) (f : Sign → Sign) : (s.modSign n f).freeCount = s.freeCount := rfl
@[simp] theorem modSign_visits (n : Lane) (f : Sign → Sign) : (s.modSign n f).visits = s.visits := rfl
@[simp] theorem modSign_check (n : Lane) (f : Sign → Sign) : (s.modSign n f).check = s.check := rfl
@[simp] theorem modSign_grader (n : Lane) (f : Sign → Sign) : (s.modSign n f).grader = s.grader := rfl
@[simp] theorem modSign_yard (n : Lane) (f : Sign → Sign) : (s.modSign n f).yard = s.yard := rfl
@[simp] theorem modSign_free (n : Lane) (f : Sign → Sign) : (s.modSign n f).free = s.free := rfl

/-! ### The fields that a change of a lane's part of the Damage Grader leaves -/

@[simp] theorem modGrade_pending (n : Lane) (f : GradeLane → GradeLane) : (s.modGrade n f).pending = s.pending := rfl
@[simp] theorem modGrade_prst (n : Lane) (f : GradeLane → GradeLane) : (s.modGrade n f).prst = s.prst := rfl
@[simp] theorem modGrade_lrst (n : Lane) (f : GradeLane → GradeLane) : (s.modGrade n f).lrst = s.lrst := rfl
@[simp] theorem modGrade_loops (n : Lane) (f : GradeLane → GradeLane) : (s.modGrade n f).loops = s.loops := rfl
@[simp] theorem modGrade_link (n : Lane) (f : GradeLane → GradeLane) : (s.modGrade n f).link = s.link := rfl
@[simp] theorem modGrade_time (n : Lane) (f : GradeLane → GradeLane) : (s.modGrade n f).time = s.time := rfl
@[simp] theorem modGrade_book (n : Lane) (f : GradeLane → GradeLane) : (s.modGrade n f).book = s.book := rfl
@[simp] theorem modGrade_engine (n : Lane) (f : GradeLane → GradeLane) : (s.modGrade n f).engine = s.engine := rfl
@[simp] theorem modGrade_ring (n : Lane) (f : GradeLane → GradeLane) : (s.modGrade n f).ring = s.ring := rfl
@[simp] theorem modGrade_lanes (n : Lane) (f : GradeLane → GradeLane) : (s.modGrade n f).lanes = s.lanes := rfl
@[simp] theorem modGrade_openWait (n : Lane) (f : GradeLane → GradeLane) : (s.modGrade n f).openWait = s.openWait := rfl
@[simp] theorem modGrade_freeCount (n : Lane) (f : GradeLane → GradeLane) : (s.modGrade n f).freeCount = s.freeCount := rfl
@[simp] theorem modGrade_visits (n : Lane) (f : GradeLane → GradeLane) : (s.modGrade n f).visits = s.visits := rfl
@[simp] theorem modGrade_check (n : Lane) (f : GradeLane → GradeLane) : (s.modGrade n f).check = s.check := rfl
@[simp] theorem modGrade_yard (n : Lane) (f : GradeLane → GradeLane) : (s.modGrade n f).yard = s.yard := rfl
@[simp] theorem modGrade_signs (n : Lane) (f : GradeLane → GradeLane) : (s.modGrade n f).signs = s.signs := rfl
@[simp] theorem modGrade_free (n : Lane) (f : GradeLane → GradeLane) : (s.modGrade n f).free = s.free := rfl

/-! ### The fields that a change of one visit leaves -/

@[simp] theorem modVisit_pending (v : Fin 64) (f : Visit → Visit) : (s.modVisit v f).pending = s.pending := rfl
@[simp] theorem modVisit_prst (v : Fin 64) (f : Visit → Visit) : (s.modVisit v f).prst = s.prst := rfl
@[simp] theorem modVisit_lrst (v : Fin 64) (f : Visit → Visit) : (s.modVisit v f).lrst = s.lrst := rfl
@[simp] theorem modVisit_loops (v : Fin 64) (f : Visit → Visit) : (s.modVisit v f).loops = s.loops := rfl
@[simp] theorem modVisit_link (v : Fin 64) (f : Visit → Visit) : (s.modVisit v f).link = s.link := rfl
@[simp] theorem modVisit_time (v : Fin 64) (f : Visit → Visit) : (s.modVisit v f).time = s.time := rfl
@[simp] theorem modVisit_book (v : Fin 64) (f : Visit → Visit) : (s.modVisit v f).book = s.book := rfl
@[simp] theorem modVisit_engine (v : Fin 64) (f : Visit → Visit) : (s.modVisit v f).engine = s.engine := rfl
@[simp] theorem modVisit_ring (v : Fin 64) (f : Visit → Visit) : (s.modVisit v f).ring = s.ring := rfl
@[simp] theorem modVisit_lanes (v : Fin 64) (f : Visit → Visit) : (s.modVisit v f).lanes = s.lanes := rfl
@[simp] theorem modVisit_openWait (v : Fin 64) (f : Visit → Visit) : (s.modVisit v f).openWait = s.openWait := rfl
@[simp] theorem modVisit_freeCount (v : Fin 64) (f : Visit → Visit) : (s.modVisit v f).freeCount = s.freeCount := rfl
@[simp] theorem modVisit_check (v : Fin 64) (f : Visit → Visit) : (s.modVisit v f).check = s.check := rfl
@[simp] theorem modVisit_grader (v : Fin 64) (f : Visit → Visit) : (s.modVisit v f).grader = s.grader := rfl
@[simp] theorem modVisit_yard (v : Fin 64) (f : Visit → Visit) : (s.modVisit v f).yard = s.yard := rfl
@[simp] theorem modVisit_signs (v : Fin 64) (f : Visit → Visit) : (s.modVisit v f).signs = s.signs := rfl
@[simp] theorem modVisit_free (v : Fin 64) (f : Visit → Visit) : (s.modVisit v f).free = s.free := rfl

/-! ### The fields that a change of the Server Link leaves -/

@[simp] theorem modLink_pending (f : Link → Link) : (s.modLink f).pending = s.pending := rfl
@[simp] theorem modLink_prst (f : Link → Link) : (s.modLink f).prst = s.prst := rfl
@[simp] theorem modLink_lrst (f : Link → Link) : (s.modLink f).lrst = s.lrst := rfl
@[simp] theorem modLink_loops (f : Link → Link) : (s.modLink f).loops = s.loops := rfl
@[simp] theorem modLink_time (f : Link → Link) : (s.modLink f).time = s.time := rfl
@[simp] theorem modLink_book (f : Link → Link) : (s.modLink f).book = s.book := rfl
@[simp] theorem modLink_engine (f : Link → Link) : (s.modLink f).engine = s.engine := rfl
@[simp] theorem modLink_ring (f : Link → Link) : (s.modLink f).ring = s.ring := rfl
@[simp] theorem modLink_lanes (f : Link → Link) : (s.modLink f).lanes = s.lanes := rfl
@[simp] theorem modLink_openWait (f : Link → Link) : (s.modLink f).openWait = s.openWait := rfl
@[simp] theorem modLink_freeCount (f : Link → Link) : (s.modLink f).freeCount = s.freeCount := rfl
@[simp] theorem modLink_visits (f : Link → Link) : (s.modLink f).visits = s.visits := rfl
@[simp] theorem modLink_check (f : Link → Link) : (s.modLink f).check = s.check := rfl
@[simp] theorem modLink_grader (f : Link → Link) : (s.modLink f).grader = s.grader := rfl
@[simp] theorem modLink_yard (f : Link → Link) : (s.modLink f).yard = s.yard := rfl
@[simp] theorem modLink_signs (f : Link → Link) : (s.modLink f).signs = s.signs := rfl
@[simp] theorem modLink_free (f : Link → Link) : (s.modLink f).free = s.free := rfl

/-! ### The fields that a change of one yard block leaves -/

@[simp] theorem modBlock_pending (b : Fin 48) (f : Block → Block) : (s.modBlock b f).pending = s.pending := rfl
@[simp] theorem modBlock_prst (b : Fin 48) (f : Block → Block) : (s.modBlock b f).prst = s.prst := rfl
@[simp] theorem modBlock_lrst (b : Fin 48) (f : Block → Block) : (s.modBlock b f).lrst = s.lrst := rfl
@[simp] theorem modBlock_loops (b : Fin 48) (f : Block → Block) : (s.modBlock b f).loops = s.loops := rfl
@[simp] theorem modBlock_link (b : Fin 48) (f : Block → Block) : (s.modBlock b f).link = s.link := rfl
@[simp] theorem modBlock_time (b : Fin 48) (f : Block → Block) : (s.modBlock b f).time = s.time := rfl
@[simp] theorem modBlock_book (b : Fin 48) (f : Block → Block) : (s.modBlock b f).book = s.book := rfl
@[simp] theorem modBlock_engine (b : Fin 48) (f : Block → Block) : (s.modBlock b f).engine = s.engine := rfl
@[simp] theorem modBlock_ring (b : Fin 48) (f : Block → Block) : (s.modBlock b f).ring = s.ring := rfl
@[simp] theorem modBlock_lanes (b : Fin 48) (f : Block → Block) : (s.modBlock b f).lanes = s.lanes := rfl
@[simp] theorem modBlock_openWait (b : Fin 48) (f : Block → Block) : (s.modBlock b f).openWait = s.openWait := rfl
@[simp] theorem modBlock_freeCount (b : Fin 48) (f : Block → Block) : (s.modBlock b f).freeCount = s.freeCount := rfl
@[simp] theorem modBlock_visits (b : Fin 48) (f : Block → Block) : (s.modBlock b f).visits = s.visits := rfl
@[simp] theorem modBlock_check (b : Fin 48) (f : Block → Block) : (s.modBlock b f).check = s.check := rfl
@[simp] theorem modBlock_grader (b : Fin 48) (f : Block → Block) : (s.modBlock b f).grader = s.grader := rfl
@[simp] theorem modBlock_signs (b : Fin 48) (f : Block → Block) : (s.modBlock b f).signs = s.signs := rfl
@[simp] theorem modBlock_free (b : Fin 48) (f : Block → Block) : (s.modBlock b f).free = s.free := rfl

/-! ### The fields that a change of one inspection bay leaves -/

@[simp] theorem modBay_pending (b : Fin 4) (f : Bay → Bay) : (s.modBay b f).pending = s.pending := rfl
@[simp] theorem modBay_prst (b : Fin 4) (f : Bay → Bay) : (s.modBay b f).prst = s.prst := rfl
@[simp] theorem modBay_lrst (b : Fin 4) (f : Bay → Bay) : (s.modBay b f).lrst = s.lrst := rfl
@[simp] theorem modBay_loops (b : Fin 4) (f : Bay → Bay) : (s.modBay b f).loops = s.loops := rfl
@[simp] theorem modBay_link (b : Fin 4) (f : Bay → Bay) : (s.modBay b f).link = s.link := rfl
@[simp] theorem modBay_time (b : Fin 4) (f : Bay → Bay) : (s.modBay b f).time = s.time := rfl
@[simp] theorem modBay_book (b : Fin 4) (f : Bay → Bay) : (s.modBay b f).book = s.book := rfl
@[simp] theorem modBay_engine (b : Fin 4) (f : Bay → Bay) : (s.modBay b f).engine = s.engine := rfl
@[simp] theorem modBay_ring (b : Fin 4) (f : Bay → Bay) : (s.modBay b f).ring = s.ring := rfl
@[simp] theorem modBay_lanes (b : Fin 4) (f : Bay → Bay) : (s.modBay b f).lanes = s.lanes := rfl
@[simp] theorem modBay_openWait (b : Fin 4) (f : Bay → Bay) : (s.modBay b f).openWait = s.openWait := rfl
@[simp] theorem modBay_freeCount (b : Fin 4) (f : Bay → Bay) : (s.modBay b f).freeCount = s.freeCount := rfl
@[simp] theorem modBay_visits (b : Fin 4) (f : Bay → Bay) : (s.modBay b f).visits = s.visits := rfl
@[simp] theorem modBay_check (b : Fin 4) (f : Bay → Bay) : (s.modBay b f).check = s.check := rfl
@[simp] theorem modBay_grader (b : Fin 4) (f : Bay → Bay) : (s.modBay b f).grader = s.grader := rfl
@[simp] theorem modBay_signs (b : Fin 4) (f : Bay → Bay) : (s.modBay b f).signs = s.signs := rfl
@[simp] theorem modBay_free (b : Fin 4) (f : Bay → Bay) : (s.modBay b f).free = s.free := rfl

/-! ### The fields that a join of the change set leaves -/

@[simp] theorem join_pending (c : Change) : (s.join c).pending = s.pending := rfl
@[simp] theorem join_prst (c : Change) : (s.join c).prst = s.prst := rfl
@[simp] theorem join_lrst (c : Change) : (s.join c).lrst = s.lrst := rfl
@[simp] theorem join_loops (c : Change) : (s.join c).loops = s.loops := rfl
@[simp] theorem join_time (c : Change) : (s.join c).time = s.time := rfl
@[simp] theorem join_book (c : Change) : (s.join c).book = s.book := rfl
@[simp] theorem join_engine (c : Change) : (s.join c).engine = s.engine := rfl
@[simp] theorem join_ring (c : Change) : (s.join c).ring = s.ring := rfl
@[simp] theorem join_lanes (c : Change) : (s.join c).lanes = s.lanes := rfl
@[simp] theorem join_openWait (c : Change) : (s.join c).openWait = s.openWait := rfl
@[simp] theorem join_freeCount (c : Change) : (s.join c).freeCount = s.freeCount := rfl
@[simp] theorem join_visits (c : Change) : (s.join c).visits = s.visits := rfl
@[simp] theorem join_check (c : Change) : (s.join c).check = s.check := rfl
@[simp] theorem join_grader (c : Change) : (s.join c).grader = s.grader := rfl
@[simp] theorem join_yard (c : Change) : (s.join c).yard = s.yard := rfl
@[simp] theorem join_signs (c : Change) : (s.join c).signs = s.signs := rfl
@[simp] theorem join_free (c : Change) : (s.join c).free = s.free := rfl

/-! ### The records that an update leaves beside the one it changes -/

@[simp] theorem modGrade_params (n : Lane) (f : GradeLane → GradeLane) :
    (s.modGrade n f).grader.params = s.grader.params := rfl
@[simp] theorem modGrade_inFlight (n : Lane) (f : GradeLane → GradeLane) :
    (s.modGrade n f).grader.inFlight = s.grader.inFlight := rfl
@[simp] theorem modGrade_lastServed (n : Lane) (f : GradeLane → GradeLane) :
    (s.modGrade n f).grader.lastServed = s.grader.lastServed := rfl
@[simp] theorem modBlock_groups (b : Fin 48) (f : Block → Block) : (s.modBlock b f).yard.groups = s.yard.groups := rfl
@[simp] theorem modBlock_bays (b : Fin 48) (f : Block → Block) : (s.modBlock b f).yard.bays = s.yard.bays := rfl
@[simp] theorem modBlock_queue (b : Fin 48) (f : Block → Block) : (s.modBlock b f).yard.queue = s.yard.queue := rfl
@[simp] theorem modBay_blocks (b : Fin 4) (f : Bay → Bay) : (s.modBay b f).yard.blocks = s.yard.blocks := rfl
@[simp] theorem modBay_groups (b : Fin 4) (f : Bay → Bay) : (s.modBay b f).yard.groups = s.yard.groups := rfl
@[simp] theorem modBay_queue (b : Fin 4) (f : Bay → Bay) : (s.modBay b f).yard.queue = s.yard.queue := rfl
@[simp] theorem modLink_link (f : Link → Link) : (s.modLink f).link = f s.link := rfl
@[simp] theorem join_changes (c : Change) : (s.join c).link.changes = joinList c s.link.changes := rfl

/-! ### Reading after an update -/

@[simp] theorem modLane_lane_same (n : Lane) (f : LaneUnit → LaneUnit) : (s.modLane n f).lane n = f (s.lane n) := by
  simp [State.lane, State.modLane]

theorem modLane_lane_other {n m : Lane} (f : LaneUnit → LaneUnit) (h : m ≠ n) : (s.modLane n f).lane m = s.lane m := by
  simp [State.lane, State.modLane, Fin.val_inj, Ne.symm h]

@[simp] theorem modSign_sign_same (n : Lane) (f : Sign → Sign) : (s.modSign n f).sign n = f (s.sign n) := by
  simp [State.sign, State.modSign]

theorem modSign_sign_other {n m : Lane} (f : Sign → Sign) (h : m ≠ n) : (s.modSign n f).sign m = s.sign m := by
  simp [State.sign, State.modSign, Fin.val_inj, Ne.symm h]

@[simp] theorem modVisit_visit_same (v : Fin 64) (f : Visit → Visit) :
    (s.modVisit v f).visit v = (s.visit v).map f := by
  simp [State.visit, State.modVisit]

theorem modVisit_visit_other {v w : Fin 64} (f : Visit → Visit) (h : w ≠ v) :
    (s.modVisit v f).visit w = s.visit w := by
  simp [State.visit, State.modVisit, Fin.val_inj, Ne.symm h]

/-- A change of a visit keeps every slot's generation, so that every handle names what it named (R61). -/
@[simp] theorem modVisit_handle (v w : Fin 64) (f : Visit → Visit) : (s.modVisit v f).handle w = s.handle w := by
  by_cases h : v = w
  · subst h; simp [State.modVisit, State.handle]
  · have h' : v.val ≠ w.val := fun e => h (Fin.ext e)
    simp [State.modVisit, State.handle, h']

@[simp] theorem modBlock_same (b : Fin 48) (f : Block → Block) :
    (s.modBlock b f).yard.blocks[b] = f s.yard.blocks[b] := by
  simp [State.modBlock]

theorem modBlock_other {b c : Fin 48} (f : Block → Block) (h : c ≠ b) :
    (s.modBlock b f).yard.blocks[c] = s.yard.blocks[c] := by
  simp [State.modBlock, Fin.val_inj, Ne.symm h]

@[simp] theorem modBay_same (b : Fin 4) (f : Bay → Bay) : (s.modBay b f).yard.bays[b] = f s.yard.bays[b] := by
  simp [State.modBay]

theorem modBay_other {b c : Fin 4} (f : Bay → Bay) (h : c ≠ b) : (s.modBay b f).yard.bays[c] = s.yard.bays[c] := by
  simp [State.modBay, Fin.val_inj, Ne.symm h]

@[simp] theorem modGrade_same (n : Lane) (f : GradeLane → GradeLane) :
    (s.modGrade n f).grader.lanes[n] = f s.grader.lanes[n] := by
  simp [State.modGrade]

theorem modGrade_other {n m : Lane} (f : GradeLane → GradeLane) (h : m ≠ n) :
    (s.modGrade n f).grader.lanes[m] = s.grader.lanes[m] := by
  simp [State.modGrade, Fin.val_inj, Ne.symm h]

end Sys2Proof.Machine
end

