-- ==== Sys2Proof/Laws/Tables.lean ====
section
/-!
SUPPORT. The sparse tables: what a write and a removal do to the list, that each keeps the canonical form, and what a
lookup reads after them.
-/

namespace Sys2Proof.Machine

variable {α : Type}

theorem tableFind_eq_none_iff {k : Nat} {t : List (Nat × α)} : tableFind k t = none ↔ ∀ p ∈ t, p.1 ≠ k := by
  induction t with
  | nil => simp [tableFind]
  | cons p t ih =>
    obtain ⟨a, v⟩ := p
    by_cases h : a = k <;> simp [tableFind, h, ih]

theorem mem_of_tableFind {k : Nat} {v : α} {t : List (Nat × α)} (h : tableFind k t = some v) : (k, v) ∈ t := by
  induction t with
  | nil => simp [tableFind] at h
  | cons p t ih =>
    obtain ⟨a, w⟩ := p
    by_cases ha : a = k
    · simp only [tableFind, ha, if_true, Option.some.injEq] at h
      simp [ha, h]
    · simp only [tableFind, ha, if_false] at h
      exact List.mem_cons_of_mem _ (ih h)

theorem mem_tablePut {k : Nat} {v : α} {t : List (Nat × α)} {p : Nat × α} (h : p ∈ tablePut k v t) :
    p = (k, v) ∨ p ∈ t := by
  induction t with
  | nil => simpa [tablePut] using h
  | cons q t ih =>
    obtain ⟨a, w⟩ := q
    simp only [tablePut] at h
    split at h
    · simpa using h
    · split at h
      · simp only [List.mem_cons] at h ⊢; tauto
      · simp only [List.mem_cons] at h ⊢
        rcases h with h | h
        · exact .inr (.inl h)
        · rcases ih h with h | h <;> tauto

theorem mem_tableDel {k : Nat} {t : List (Nat × α)} {p : Nat × α} (h : p ∈ tableDel k t) : p ∈ t := by
  induction t with
  | nil => simp [tableDel] at h
  | cons q t ih =>
    obtain ⟨a, w⟩ := q
    simp only [tableDel] at h
    split at h
    · exact List.mem_cons_of_mem _ h
    · simp only [List.mem_cons] at h ⊢
      exact h.imp id ih

/-- A write keeps the canonical form. -/
theorem tablePut_wf {k : Nat} {v : α} {t : List (Nat × α)} (h : tableWf t) : tableWf (tablePut k v t) := by
  induction t with
  | nil => simp [tablePut]
  | cons q t ih =>
    obtain ⟨a, w⟩ := q
    rw [tableWf, List.pairwise_cons] at h
    simp only [tablePut]
    split
    · rename_i hk
      refine List.pairwise_cons.2 ⟨fun p hp => ?_, List.pairwise_cons.2 h⟩
      rcases List.mem_cons.1 hp with rfl | hp
      · exact hk
      · exact Nat.lt_trans hk (h.1 p hp)
    · split
      · rename_i ha; subst ha
        exact List.pairwise_cons.2 h
      · refine List.pairwise_cons.2 ⟨fun p hp => ?_, ih h.2⟩
        rcases mem_tablePut hp with rfl | hp
        · simp only; omega
        · exact h.1 p hp

/-- A removal keeps the canonical form. -/
theorem tableDel_wf {k : Nat} {t : List (Nat × α)} (h : tableWf t) : tableWf (tableDel k t) := by
  induction t with
  | nil => simp [tableDel]
  | cons q t ih =>
    obtain ⟨a, w⟩ := q
    rw [tableWf, List.pairwise_cons] at h
    simp only [tableDel]
    split
    · exact h.2
    · exact List.pairwise_cons.2 ⟨fun p hp => h.1 p (mem_tableDel hp), ih h.2⟩

/-- A write at a key that is there, and a removal, whole. -/
theorem table_split {k : Nat} {old : α} {t : List (Nat × α)} (h : tableWf t) (hf : tableFind k t = some old) :
    ∃ l r, t = l ++ (k, old) :: r ∧ tableDel k t = l ++ r ∧ ∀ v, tablePut k v t = l ++ (k, v) :: r := by
  induction t with
  | nil => simp [tableFind] at hf
  | cons q t ih =>
    obtain ⟨a, w⟩ := q
    rw [tableWf, List.pairwise_cons] at h
    by_cases ha : a = k
    · subst ha
      simp only [tableFind, if_true, Option.some.injEq] at hf
      subst hf
      exact ⟨[], t, by simp, by simp [tableDel], by simp [tablePut]⟩
    · simp only [tableFind, ha, if_false] at hf
      obtain ⟨l, r, h1, h2, h3⟩ := ih h.2 hf
      have hlt : ¬ k < a := by
        have := h.1 _ (mem_of_tableFind hf)
        simp only at this; omega
      exact ⟨(a, w) :: l, r, by simp [h1], by simp [tableDel, ha, h2], by simp [tablePut, ha, hlt, h3]⟩

/-- A write at a new key, whole. -/
theorem tablePut_fresh {k : Nat} {v : α} {t : List (Nat × α)} (hf : tableFind k t = none) :
    ∃ l r, t = l ++ r ∧ tablePut k v t = l ++ (k, v) :: r := by
  induction t with
  | nil => exact ⟨[], [], rfl, rfl⟩
  | cons q t ih =>
    obtain ⟨a, w⟩ := q
    have ha : a ≠ k := tableFind_eq_none_iff.1 hf (a, w) (by simp)
    simp only [tableFind, ha, if_false] at hf
    by_cases hlt : k < a
    · exact ⟨[], (a, w) :: t, rfl, by simp [tablePut, hlt]⟩
    · obtain ⟨l, r, h1, h2⟩ := ih hf
      exact ⟨(a, w) :: l, r, by simp [h1], by simp [tablePut, ha, hlt, h2]⟩

/-- What was written is read. -/
theorem tableFind_tablePut_same (k : Nat) (v : α) (t : List (Nat × α)) : tableFind k (tablePut k v t) = some v := by
  induction t with
  | nil => simp [tableFind, tablePut]
  | cons q t ih =>
    obtain ⟨a, w⟩ := q
    simp only [tablePut]
    split
    · simp [tableFind]
    · split
      · simp [tableFind]
      · rename_i ha; simp [tableFind, ha, ih]

/-- A write leaves every other key. -/
theorem tableFind_tablePut_other {j k : Nat} (h : j ≠ k) (v : α) (t : List (Nat × α)) :
    tableFind j (tablePut k v t) = tableFind j t := by
  induction t with
  | nil => simp [tableFind, tablePut, Ne.symm h]
  | cons q t ih =>
    obtain ⟨a, w⟩ := q
    simp only [tablePut]
    split
    · simp [tableFind, Ne.symm h]
    · split
      · rename_i ha; subst ha; simp [tableFind, Ne.symm h]
      · simp [tableFind, ih]

/-- The lowest free key of a canonical table is free, at most the number of entries above its start, and no lower key from
the start is free. -/
theorem tableLowestFree_spec (k : Nat) (t : List (Nat × α)) (h : tableWf t) (hk : ∀ p ∈ t, k ≤ p.1) :
    tableFind (tableLowestFree k t) t = none ∧ tableLowestFree k t ≤ k + t.length
    ∧ ∀ j, k ≤ j → j < tableLowestFree k t → tableFind j t ≠ none := by
  induction t generalizing k with
  | nil => exact ⟨rfl, by simp [tableLowestFree], fun j h1 h2 => by simp [tableLowestFree] at h2; omega⟩
  | cons q t ih =>
    obtain ⟨a, w⟩ := q
    rw [tableWf, List.pairwise_cons] at h
    by_cases ha : a = k
    · subst ha
      obtain ⟨h1, h2, h3⟩ := ih (a + 1) h.2 (fun p hp => h.1 p hp)
      have hne : a ≠ tableLowestFree (a + 1) t := by
        have : ∀ (c : Nat) (u : List (Nat × α)), c ≤ tableLowestFree c u := by
          intro c u
          induction u generalizing c with
          | nil => simp [tableLowestFree]
          | cons p u ih =>
            obtain ⟨b, x⟩ := p
            simp only [tableLowestFree]
            split
            · exact Nat.le_of_succ_le (ih _)
            · exact Nat.le_refl _
        have := this (a + 1) t
        omega
      refine ⟨by simp [tableLowestFree, tableFind, hne, h1], by simp [tableLowestFree]; omega, ?_⟩
      intro j h4 h5
      simp only [tableLowestFree, if_true] at h5
      by_cases hj : a = j
      · simp [tableFind, hj]
      · simp only [tableFind, hj, if_false]
        exact h3 j (by omega) h5
    · refine ⟨?_, by simp [tableLowestFree, ha], ?_⟩
      · simp only [tableLowestFree, ha, if_false]
        rw [tableFind_eq_none_iff]
        intro p hp
        have := hk (a, w) (by simp)
        rcases List.mem_cons.1 hp with rfl | hp
        · exact ha
        · have := h.1 p hp; simp only at *; omega
      · intro j h4 h5
        simp only [tableLowestFree, ha, if_false] at h5
        omega

end Sys2Proof.Machine
end

