-- ==== Sys2Proof/Laws/Internal.lean ====
section
/-!
SUPPORT. What the operations inside the part can do outside the records they change, said once: `Internal s t` says that
`t` follows `s` by changes that leave the queue of commands, the reset lines, the time base and the transfers alone, that
join or leave the change set without repeating an item, and that keep the book's invariant.
-/

namespace Sys2Proof.Machine

/-! ### The book's invariant under its updates -/

/-- The part of a record in the NO_SHOW count. -/
def Booking.counted (r : Booking) : Nat := if r.state = .noShow then 1 else 0

theorem Book.Kept.put {b : Book} (h : b.Kept) {k : Nat} {old new : Booking} (hf : tableFind k b.records = some old)
    {n : Nat} (hn : n + old.counted = b.noShow + new.counted) :
    ({ b with records := tablePut k new b.records, noShow := n } : Book).Kept := by
  obtain ⟨l, r, h1, -, h3⟩ := table_split h.rising hf
  refine ⟨tablePut_wf h.rising, ?_, ?_, ?_⟩
  · intro p hp
    rcases mem_tablePut hp with rfl | hp
    · exact h.slots (k, old) (mem_of_tableFind hf)
    · exact h.slots p hp
  · have := h.live
    rw [h1] at this
    simpa [h3] using this
  · have := h.noShow
    rw [h1] at this
    simp only [List.countP_append, List.countP_cons] at this
    simp only [h3, List.countP_append, List.countP_cons]
    simp only [Booking.counted] at hn
    have e1 : (if (old.state == BookingState.noShow) = true then 1 else 0) = if old.state = .noShow then 1 else 0 := by
      simp
    have e2 : (if (new.state == BookingState.noShow) = true then 1 else 0) = if new.state = .noShow then 1 else 0 := by
      simp
    rw [e1] at this; rw [e2]
    omega

theorem Book.Kept.counted_le {b : Book} (h : b.Kept) {k : Nat} {old : Booking}
    (hf : tableFind k b.records = some old) : old.counted ≤ b.noShow := by
  obtain ⟨l, r, h1, -, -⟩ := table_split h.rising hf
  have := h.noShow
  rw [h1] at this
  simp only [List.countP_append, List.countP_cons] at this
  simp only [Booking.counted]
  have e1 : (if (old.state == BookingState.noShow) = true then 1 else 0) = if old.state = .noShow then 1 else 0 := by
    simp
  rw [e1] at this
  omega

theorem Book.Kept.remove {b : Book} (h : b.Kept) {k : Nat} {old : Booking} (hf : tableFind k b.records = some old)
    {n : Nat} (hn : n + old.counted = b.noShow) (index : List (Nat × Nat)) :
    (⟨tableDel k b.records, index, b.live - 1, n⟩ : Book).Kept := by
  obtain ⟨l, r, h1, h2, -⟩ := table_split h.rising hf
  refine ⟨tableDel_wf h.rising, fun p hp => h.slots p (mem_tableDel hp), ?_, ?_⟩
  · have := h.live
    rw [h1] at this
    simp only [List.length_append, List.length_cons] at this
    simp only [h2, List.length_append]
    omega
  · have := h.noShow
    rw [h1] at this
    simp only [List.countP_append, List.countP_cons] at this
    simp only [h2, List.countP_append]
    simp only [Booking.counted] at hn
    have e1 : (if (old.state == BookingState.noShow) = true then 1 else 0) = if old.state = .noShow then 1 else 0 := by
      simp
    rw [e1] at this
    omega

theorem Book.Kept.insert {b : Book} (h : b.Kept) (hl : b.live < 8192) {r : Booking} (hr : r.state ≠ .noShow) :
    (b.insert (tableLowestFree 0 b.records) r).Kept := by
  obtain ⟨h1, h2, -⟩ := tableLowestFree_spec 0 b.records h.rising (by simp)
  obtain ⟨l, q, h3, h4⟩ := tablePut_fresh (v := r) h1
  refine ⟨tablePut_wf h.rising, ?_, ?_, ?_⟩
  · intro p hp
    rcases mem_tablePut hp with rfl | hp
    · have := h.live; simp only; omega
    · exact h.slots p hp
  · have := h.live
    rw [h3] at this
    simp only [List.length_append] at this
    simp only [Book.insert, h4, List.length_append, List.length_cons]
    omega
  · have := h.noShow
    rw [h3] at this
    simp only [List.countP_append] at this
    simp only [Book.insert, h4, List.countP_append, List.countP_cons]
    have e : (r.state == BookingState.noShow) = false := by simp [hr]
    simp [e, this]

theorem Book.Kept.sweep {b : Book} (h : b.Kept) (start : Nat) : (b.sweep start).Kept := by
  refine ⟨?_, ?_, ?_, ?_⟩
  · have := h.rising
    simp only [Book.sweep, tableWf, List.pairwise_map] at this ⊢
    exact this
  · intro p hp
    simp only [Book.sweep, List.mem_map] at hp
    obtain ⟨q, hq, rfl⟩ := hp
    exact h.slots q hq
  · simp [Book.sweep, h.live]
  · simp only [Book.sweep, h.noShow]
    generalize b.records = l
    induction l with
    | nil => rfl
    | cons p l ih =>
      simp only [List.countP_cons, List.map_cons, List.filter_cons] at ih ⊢
      rcases p with ⟨k, r⟩
      by_cases hw : r.window = some start <;> cases hs : r.state <;>
        simp_all [swept, sweepBooking] <;> omega

theorem Book.held_find {b : Book} {slot : Option Nat} {ref : Text} {k : Nat} {r : Booking}
    (h : b.held slot ref = some (k, r)) : tableFind k b.records = some r := by
  unfold Book.held at h
  split at h
  · cases h
  · split at h
    · split at h
      · simp only [Option.some.injEq, Prod.mk.injEq] at h
        obtain ⟨rfl, rfl⟩ := h
        assumption
      · cases h
    · cases h

/-! ### The ring's invariant under its updates -/

theorem Ring.Kept.map {r : Ring} (h : r.Kept) (f : Window → Window) (hf : ∀ w, (f w).start = w.start) :
    ({ r with windows := r.windows.map f } : Ring).Kept := by
  refine ⟨by simpa using h.count, fun hn => h.span (by simpa using hn), fun i a b ha hb => ?_, fun w (hw : w ∈ r.windows.map f) => ?_⟩
  · simp only [List.getElem?_map, Option.map_eq_some_iff] at ha hb
    obtain ⟨a', ha, rfl⟩ := ha
    obtain ⟨b', hb, rfl⟩ := hb
    rw [hf, hf]
    exact h.rising i a' b' ha hb
  · obtain ⟨w', hw', rfl⟩ := List.mem_map.1 hw
    rw [hf]
    exact h.last w' hw'

theorem Ring.Kept.modWindow {r : Ring} (h : r.Kept) (start : Nat) (f : Window → Window)
    (hf : ∀ w, (f w).start = w.start) : (r.modWindow start f).Kept :=
  h.map _ fun w => by split <;> simp [hf]

theorem Ring.Kept.addBooked {r : Ring} (h : r.Kept) (w : Nat) (k : Kind) : (r.addBooked w k).Kept :=
  h.modWindow _ _ fun _ => rfl
theorem Ring.Kept.subBooked {r : Ring} (h : r.Kept) (w : Nat) (k : Kind) : (r.subBooked w k).Kept :=
  h.modWindow _ _ fun _ => rfl
theorem Ring.Kept.addArrived {r : Ring} (h : r.Kept) (w : Nat) (k : Kind) : (r.addArrived w k).Kept :=
  h.modWindow _ _ fun _ => rfl
theorem Ring.Kept.subArrived {r : Ring} (h : r.Kept) (w : Nat) (k : Kind) : (r.subArrived w k).Kept :=
  h.modWindow _ _ fun _ => rfl

theorem Ring.Kept.moveBooked {r : Ring} (h : r.Kept) (old new : Option Nat) (k : Kind) : (r.moveBooked old new k).Kept := by
  unfold Ring.moveBooked
  split
  · split
    · exact h
    · exact (h.subBooked _ _).addBooked _ _
  · exact h

theorem Ring.Kept.advance {r : Ring} (h : r.Kept) : r.advance.Kept := by
  unfold Ring.advance
  split
  · rename_i w rest newest hw hn
    have hlen := h.count
    have hlast := h.last
    have hrise := h.rising
    have hspan := h.span (by rw [hw]; simp)
    rw [hw] at hlen hlast hrise hn
    have hrest : ∀ i (a b : Window), rest[i]? = some a → rest[i + 1]? = some b → b.start = a.start + r.span :=
      fun i a b ha hb => hrise (i + 1) a b (by simpa using ha) (by simpa using hb)
    simp only [List.length_cons] at hlen
    dsimp only
    split
    · refine ⟨by simp; omega, fun _ => hspan, fun i a b ha hb => ?_, fun x hx => ?_⟩
      · by_cases hi : i + 1 < rest.length
        · rw [List.getElem?_append_left (by omega)] at ha
          rw [List.getElem?_append_left hi] at hb
          exact hrest i a b ha hb
        · have hi' : i + 1 = rest.length := by
            have := List.getElem?_eq_some_iff.1 hb
            obtain ⟨h1, -⟩ := this
            simp only [List.length_append, List.length_cons, List.length_nil] at h1
            omega
          rw [List.getElem?_append_right (by omega), hi', Nat.sub_self] at hb
          rw [List.getElem?_append_left (by omega)] at ha
          simp only [List.getElem?_cons_zero, Option.some.injEq] at hb
          subst hb
          have : newest = a := by
            rw [List.getLast?_eq_getElem?] at hn
            simp only [List.length_cons, Nat.add_sub_cancel] at hn
            rw [← hi', List.getElem?_cons_succ] at hn
            rw [ha] at hn
            exact (Option.some.inj hn).symm
          rw [this]; rfl
      · rcases List.mem_append.1 hx with hx | hx
        · exact hlast x (List.mem_cons_of_mem _ hx)
        · simp only [List.mem_singleton] at hx
          subst hx
          assumption
    · exact ⟨by show rest.length ≤ 96; omega, fun _ => hspan, hrest, fun x hx => hlast x (List.mem_cons_of_mem _ hx)⟩
  · exact h

/-! ### The relation -/

/-- `t` follows `s` by an operation inside the part. -/
structure Internal (s t : State) : Prop where
  pending : t.pending = s.pending
  prst : t.prst = s.prst
  lrst : t.lrst = s.lrst
  time : t.time = s.time
  link : t.link = { s.link with changes := t.link.changes }
  changes : s.link.changes.Nodup → t.link.changes.Nodup
  book : s.book.Kept → t.book.Kept
  ring : s.ring.Kept → t.ring.Kept := by exact id

theorem Internal.refl (s : State) : Internal s s := ⟨rfl, rfl, rfl, rfl, rfl, id, id, id⟩

theorem Internal.trans {s t u : State} (h : Internal s t) (g : Internal t u) : Internal s u := by
  refine ⟨g.pending.trans h.pending, g.prst.trans h.prst, g.lrst.trans h.lrst, g.time.trans h.time, ?_,
    g.changes ∘ h.changes, g.book ∘ h.book, g.ring ∘ h.ring⟩
  rw [g.link, h.link]

/-- An operation that leaves the queue, the lines, the time base, the link and the book alone is internal. -/
theorem Internal.of_eq {s t : State} (pending : t.pending = s.pending) (prst : t.prst = s.prst) (lrst : t.lrst = s.lrst)
    (time : t.time = s.time) (link : t.link = s.link) (book : t.book = s.book)
    (ring : s.ring.Kept → t.ring.Kept := by exact id) : Internal s t :=
  ⟨pending, prst, lrst, time, by rw [link], by rw [link]; exact id, by rw [book]; exact id, ring⟩

theorem Internal.foldl {α : Type} {f : State → α → State} (h : ∀ s a, Internal s (f s a)) (l : List α) (s : State) :
    Internal s (l.foldl f s) := by
  induction l generalizing s with
  | nil => exact .refl s
  | cons a l ih => exact (h s a).trans (ih _)

theorem Internal.forLanes {f : Lane → State → State} (h : ∀ n s, Internal s (f n s)) (s : State) :
    Internal s (Machine.forLanes f s) := Internal.foldl (fun s n => h n s) _ s

theorem Internal.ite {s t u : State} {p : Prop} [Decidable p] (ht : Internal s t) (hu : Internal s u) :
    Internal s (if p then t else u) := by split <;> assumption

variable (s : State)

/-! ### The record updates -/

theorem Internal.modLane (n : Lane) (f : LaneUnit → LaneUnit) : Internal s (s.modLane n f) :=
  .of_eq rfl rfl rfl rfl rfl rfl
theorem Internal.modSign (n : Lane) (f : Sign → Sign) : Internal s (s.modSign n f) := .of_eq rfl rfl rfl rfl rfl rfl
theorem Internal.modGrade (n : Lane) (f : GradeLane → GradeLane) : Internal s (s.modGrade n f) :=
  .of_eq rfl rfl rfl rfl rfl rfl
theorem Internal.modVisit (v : Fin 64) (f : Visit → Visit) : Internal s (s.modVisit v f) :=
  .of_eq rfl rfl rfl rfl rfl rfl
theorem Internal.modBlock (b : Fin 48) (f : Block → Block) : Internal s (s.modBlock b f) :=
  .of_eq rfl rfl rfl rfl rfl rfl
theorem Internal.modBay (b : Fin 4) (f : Bay → Bay) : Internal s (s.modBay b f) := .of_eq rfl rfl rfl rfl rfl rfl
theorem Internal.loadDwell (n : Lane) (form : TimerForm) (k : LimitKind) : Internal s (s.loadDwell n form k) :=
  .modLane s n _
theorem Internal.stopDwell (n : Lane) : Internal s (s.stopDwell n) := .modLane s n _
theorem Internal.takeExpiry (n : Lane) : Internal s (s.takeExpiry n) := .modLane s n _

theorem joinList_nodup (c : Change) {cs : List Change} (h : cs.Nodup) : (joinList c cs).Nodup := by
  unfold joinList
  split
  · exact h
  · rename_i hc
    rw [List.nodup_append]
    exact ⟨h, by simp, by intro a ha b hb; simp only [List.mem_singleton] at hb; rintro rfl; exact hc (hb ▸ ha)⟩

theorem Internal.join (c : Change) : Internal s (s.join c) :=
  ⟨rfl, rfl, rfl, rfl, rfl, joinList_nodup c, id, id⟩

/-! ### Book updates by visits (R19 to R21) -/

theorem Internal.admitBooking (l : Leg) (h : Handle) : Internal s (s.admitBooking l h) := by
  unfold State.admitBooking
  split
  · exact .refl s
  · rename_i k r hk
    have hf := Book.held_find hk
    split
    · rename_i hst
      refine ⟨rfl, rfl, rfl, rfl, rfl, id, fun hb => ?_, fun hr => by
        dsimp only; split
        · exact hr.addArrived _ _
        · exact hr⟩
      exact hb.put hf (by simp [Booking.counted, hst.1])
    · split
      · rename_i hst
        refine ⟨rfl, rfl, rfl, rfl, rfl, id, fun hb => ?_, id⟩
        have := hb.counted_le hf
        refine hb.put hf ?_
        simp only [Booking.counted, hst] at this ⊢
        simp at this ⊢; omega
      · exact .refl s

theorem Internal.revertBooking (l : Leg) (h : Handle) : Internal s (s.revertBooking l h) := by
  unfold State.revertBooking
  split
  · exact .refl s
  · rename_i k r hk
    have hf := Book.held_find hk
    split
    · rename_i hst
      have h0 : r.counted = 0 := by rcases hst.1 with h | h <;> simp [Booking.counted, h]
      split
      · refine ⟨rfl, rfl, rfl, rfl, rfl, id, fun hb => ?_, fun hr => by
          dsimp only; split
          · exact hr.subArrived _ _
          · exact hr⟩
        exact hb.put hf (by rw [h0]; simp [Booking.counted])
      · refine ⟨rfl, rfl, rfl, rfl, rfl, id, fun hb => ?_, id⟩
        exact hb.put hf (by rw [h0]; simp [Booking.counted])
    · exact .refl s

theorem Internal.releaseBooking (l : Leg) (h : Handle) : Internal s (s.releaseBooking l h) := by
  unfold State.releaseBooking
  split
  · exact .refl s
  · rename_i k r hk
    have hf := Book.held_find hk
    split
    · refine ⟨rfl, rfl, rfl, rfl, rfl, id, fun hb => ?_, id⟩
      exact hb.put hf (by simp [Booking.counted])
    · exact .refl s

theorem Internal.admitLegs (h : Handle) (legs : List Leg) : Internal s (s.admitLegs h legs) :=
  .foldl (fun t l => .admitBooking t l h) legs s

/-! ### Visits and lanes -/

theorem Internal.openVisit (n : Lane) (v : Fin 64) : Internal s (s.openVisit n v) :=
  .of_eq rfl rfl rfl rfl rfl rfl
theorem Internal.joinWait (n : Lane) : Internal s (s.joinWait n) := .of_eq rfl rfl rfl rfl rfl rfl
theorem Internal.leaveWait (n : Lane) : Internal s (s.leaveWait n) := .of_eq rfl rfl rfl rfl rfl rfl

theorem Internal.takeEntry (n : Lane) : Internal s (s.takeEntry n) := by
  unfold State.takeEntry
  split
  · split
    · split
      · exact .openVisit s n _
      · exact .refl s
    · exact .joinWait s n
    all_goals exact .refl s
  · exact .refl s

theorem Internal.enterHeld (n : Lane) (v : Fin 64) : Internal s (s.enterHeld n v) :=
  ((Internal.modVisit s v _).trans (.loadDwell _ n _ _)).trans (.join _ _)

theorem Internal.enterYardWait (n : Lane) (v : Fin 64) : Internal s (s.enterYardWait n v) :=
  (((Internal.modVisit s v _).trans (.loadDwell _ n _ _)).trans (.join _ _)).trans (.of_eq rfl rfl rfl rfl rfl rfl)

theorem Internal.startReleasing (n : Lane) : Internal s (s.startReleasing n) :=
  (Internal.modLane s n _).trans (.loadDwell _ n _ _)

theorem Internal.enterReleasing (n : Lane) (v : Fin 64) : Internal s (s.enterReleasing n v) :=
  ((Internal.modVisit s v _).trans (.startReleasing _ n)).trans (.modSign _ n _)

theorem Internal.dropLegs (v : Fin 64) (which : Leg → Bool) : Internal s (s.dropLegs v which) := by
  unfold State.dropLegs
  split
  · exact .refl s
  · exact (Internal.foldl (fun t l => .revertBooking t l _) _ s).trans (.modVisit _ v _)

theorem Internal.turnAway (n : Lane) (v : Fin 64) (src : DecisionSource) (out : ReleaseOutcome) :
    Internal s (s.turnAway n v src out) :=
  ((Internal.dropLegs s v _).trans (.modVisit _ v _)).trans (.enterReleasing _ n v)

theorem Internal.completeClosing (n : Lane) : Internal s (s.completeClosing n) :=
  (Internal.modLane s n _).trans (.join _ _)

theorem Internal.afterDeparture (n : Lane) : Internal s (s.afterDeparture n) := by
  unfold State.afterDeparture
  exact ((Internal.modLane s n _).trans (.modSign _ n _)).trans
    (.ite (.completeClosing _ n) (.ite (.takeEntry _ n) (.refl _)))

theorem Internal.departVisit (n : Lane) (v : Fin 64) : Internal s (s.departVisit n v) :=
  ((Internal.modVisit s v _).trans (.join _ _)).trans (.afterDeparture _ n)

/-! ### Signs -/

theorem Internal.beginJob (n : Lane) (first : Nat) (lines : List Line) : Internal s (s.beginJob n first lines) :=
  .of_eq rfl rfl rfl rfl rfl rfl

theorem Internal.startJobOn (refresh : Bool) (n : Lane) : Internal s (startJobOn refresh n s) := by
  unfold Machine.startJobOn
  split
  · split
    · exact .beginJob s n _ _
    · exact .refl s
  · exact .refl s

theorem Internal.startJobs : Internal s s.startJobs := .forLanes (fun n t => .startJobOn t false n) s

theorem Internal.report (n : Lane) : Internal s (s.report n) := by
  unfold State.report
  split
  · exact .ite (.refl s) ((Internal.modSign s n _).trans (.enterReleasing _ n _))
  · exact .refl s

theorem Internal.enterDirecting (n : Lane) (v : Fin 64) : Internal s (s.enterDirecting n v) := by
  unfold State.enterDirecting
  exact (((Internal.modVisit s v _).trans (.stopDwell _ n)).trans (.modSign _ n _)).trans (.ite (.report _ n) (.refl _))

theorem Internal.completeJob (n : Lane) (j : Job) : Internal s (s.completeJob n j) := by
  unfold State.completeJob
  exact ((Internal.modSign s n _).trans (.ite (.report _ n) (.refl _))).trans (.startJobOn _ false n)

theorem Internal.acceptLine (n : Lane) (j : Job) : Internal s (s.acceptLine n j) := by
  unfold State.acceptLine
  exact (Internal.modSign s n _).trans (.ite (.modSign _ n _) (.completeJob _ n j))

theorem Internal.markSignFault (h : Option Handle) : Internal s (s.markSignFault h) := by
  unfold State.markSignFault
  split
  · exact .refl s
  · exact .ite ((Internal.modVisit s _ _).trans (.join _ _)) (.refl s)

theorem Internal.failJob (n : Lane) (j : Job) : Internal s (s.failJob n j) := by
  unfold State.failJob
  have h : ∀ t : State, Internal t (match t.residentIn n .directing with
      | some (v, _) => if j.subject = some (t.handle v) then t.report n else t
      | none => t) := by
    intro t
    split
    · exact .ite (.report _ n) (.refl _)
    · exact .refl _
  exact ((Internal.modSign s n _).trans (.markSignFault _ _)).trans (h _)

theorem Internal.takeReply (n : Lane) (r : Reply) : Internal s (s.takeReply n r) := by
  unfold State.takeReply
  split
  · exact .ite (.ite (.acceptLine s n _) (.failJob s n _)) (.refl s)
  all_goals exact .refl s

theorem Internal.refreshSign (n : Lane) : Internal s (s.refreshSign n) := by
  unfold State.refreshSign
  split
  · exact .refl s
  · exact (Internal.modSign s n _).trans (.startJobOn _ false n)
  · split
    · exact .refl s
    · exact .refl s
    · exact .modSign s n _
    · exact .startJobOn s true n

theorem Internal.switchSign (n : Lane) : Internal s (s.switchSign n) := by
  unfold State.switchSign
  exact (Internal.modSign s n _).trans (.ite (.report _ n) (.refl _))

theorem Internal.setSign (n : Lane) (r : SignReq) : Internal s (s.setSign n r) := by
  unfold State.setSign
  exact ((Internal.modSign s n _).trans (.ite (.switchSign _ n) (.refl _))).trans (.startJobs _)

/-! ### The yard -/

theorem Internal.commitDest (h : Handle) (i : Nat) (l : Leg) (d : Option Dest) : Internal s (s.commitDest h i l d) := by
  unfold State.commitDest
  split
  · exact .refl s
  · exact .ite (.modBlock s _ _) (.refl s)
  · exact .modBay s _ _

theorem Internal.commitAll (h : Handle) (legs : List Leg) (dests : List (Option Dest)) :
    Internal s (s.commitAll h legs dests) := .foldl (fun t _ => .commitDest t h _ _ _) _ s

theorem Internal.place {v : Fin 64} {t : State} (h : s.place v = some t) : Internal s t := by
  unfold State.place at h
  split at h
  · cases h
  · split at h
    · cases h
    · cases h
      exact (Internal.commitAll s _ _ _).trans (.modVisit _ v _)

theorem Internal.allocate (n : Lane) (v : Fin 64) : Internal s (s.allocate n v) := by
  unfold State.allocate
  split
  · exact (Internal.place s ‹_›).trans (.enterDirecting _ n v)
  · exact .enterYardWait s n v

theorem Internal.leaveQueue (h : Handle) : Internal s (s.leaveQueue h) := .of_eq rfl rfl rfl rfl rfl rfl

theorem Internal.retryOne (h : Handle) : Internal s (s.retryOne h) := by
  unfold State.retryOne
  split
  · exact .refl s
  · split
    · exact ((Internal.place s ‹_›).trans (.leaveQueue _ h)).trans (.enterDirecting _ _ _)
    · exact .refl s

theorem Internal.retry : Internal s s.retry := .foldl (fun t h => .retryOne t h) _ s

theorem Internal.retryIf (b : Bool) : Internal s (s.retryIf b) := .ite (.retry s) (.refl s)

theorem Internal.releaseLeg (h : Handle) (i : Nat) (l : Leg) : Internal s (s.releaseLeg h i l) := by
  unfold State.releaseLeg
  split
  · split
    · exact .modBlock s _ _
    · exact .modBay s _ _
    · exact .refl s
  · exact .refl s

theorem Internal.releaseLegs (h : Handle) (legs : List Leg) : Internal s (s.releaseLegs h legs) :=
  .foldl (fun t _ => .releaseLeg t h _ _) _ s

theorem Internal.withdraw (n : Lane) : Internal s (s.withdraw n) := .of_eq rfl rfl rfl rfl rfl rfl
theorem Internal.emptySlot (n : Lane) : Internal s (s.emptySlot n) := .modGrade s n _

theorem Internal.rejectVisit (v : Fin 64) (why : RejectReason) : Internal s (s.rejectVisit v why) := by
  unfold State.rejectVisit
  split
  · exact .refl s
  · exact ((((Internal.releaseLegs s _ _).trans (.dropLegs _ v _)).trans (.modVisit _ v _)).trans
      (.leaveQueue _ _)).trans (.join _ _)

theorem Internal.convertLeg (h : Handle) (i : Nat) (l : Leg) : Internal s (s.convertLeg h i l) := by
  unfold State.convertLeg
  split
  · exact .ite (.modBlock s _ _) (.modBlock s _ _)
  · exact .modBay s _ _
  · exact .refl s

/-! ### Grading and the end of CHECKING -/

theorem Internal.closeGrading (n : Lane) (v : Fin 64) : Internal s (s.closeGrading n v) :=
  (Internal.modVisit s v _).trans (.modGrade _ n _)

theorem Internal.settleNotice (n : Lane) (v : Fin 64) : Internal s (s.settleNotice n v) := by
  unfold State.settleNotice
  split
  · exact .refl s
  · exact .ite (.ite ((Internal.modVisit s v _).trans (.modGrade _ n _))
      ((Internal.modVisit s v _).trans (.closeGrading _ n v))) (.refl s)

theorem Internal.earlyTest (n : Lane) (v : Fin 64) : Internal s (s.earlyTest n v) := by
  unfold State.earlyTest
  split
  · exact .refl s
  · exact .ite (.closeGrading s n v) (.refl s)

theorem Internal.takeScan (n : Lane) (x : Visit) (c : Scan) : Internal s (s.takeScan n x c) :=
  .ite (.modGrade s n _) (.modGrade s n _)

theorem Internal.gradingTake : Internal s s.gradingTake := by
  unfold State.gradingTake
  split
  · exact .refl s
  · split
    · exact .refl s
    · split
      · exact .refl s
      · exact .of_eq rfl rfl rfl rfl rfl rfl

theorem Internal.applyScan (n : Lane) (c : Scan) : Internal s (s.applyScan n c) := by
  unfold State.applyScan
  split
  · exact .refl s
  · exact .ite (.ite (.modGrade s n _) (.modVisit s _ _)) (.refl s)

theorem Internal.closeClosing (n : Lane) (v : Fin 64) : Internal s (closeClosing n s v) := by
  unfold Machine.closeClosing
  split
  · exact .refl s
  · exact .ite ((Internal.modVisit s v _).trans (.closeGrading _ n v)) (.refl s)

theorem Internal.closeAllClosing (n : Lane) : Internal s (s.closeAllClosing n) :=
  .foldl (fun t v => .closeClosing t n v) _ s

theorem Internal.autoAdmit (n : Lane) (v : Fin 64) : Internal s (s.autoAdmit n v) := by
  unfold State.autoAdmit
  split
  · exact .refl s
  · exact ((Internal.admitLegs s _ _).trans (.modVisit _ v _)).trans (.allocate _ n v)

theorem Internal.endOfChecking (n : Lane) (v : Fin 64) : Internal s (s.endOfChecking n v) := by
  unfold State.endOfChecking
  split
  · exact .refl s
  · exact (Internal.modVisit s v _).trans (.ite (.autoAdmit _ n v) (.enterHeld _ n v))

theorem Internal.testChecking (n : Lane) : Internal s (s.testChecking n) := by
  unfold State.testChecking
  split
  · exact .ite (.endOfChecking s n _) (.refl s)
  · exact .refl s

theorem Internal.earlyTestOf (h : Handle) : Internal s (s.earlyTestOf h) := by
  unfold State.earlyTestOf
  split
  · exact .ite ((Internal.closeGrading s _ _).trans (.testChecking _ _)) (.refl s)
  · exact .refl s

theorem Internal.gradingCompletes (n : Lane) (c : Scan) : Internal s (s.gradingCompletes n c) := by
  unfold State.gradingCompletes
  have h0 : Internal s ({ s with grader := { s.grader with inFlight := none } } : State) :=
    .of_eq rfl rfl rfl rfl rfl rfl
  refine ((((h0.trans (.applyScan _ n c)).trans (.closeAllClosing _ n)).trans ?_).trans (.testChecking _ n)).trans
    ((Internal.gradingTake _).trans (.startJobs _))
  exact .earlyTestOf _ _

/-! ### The index engine and identification -/

theorem Internal.grantTo (r : Fin 13) : Internal s (s.grantTo r) := by
  unfold State.grantTo
  split
  · simp only
    split
    · exact .of_eq rfl rfl rfl rfl rfl rfl
    · exact .refl s
  · exact .of_eq rfl rfl rfl rfl rfl rfl

theorem Internal.grant : Internal s s.grant := by
  unfold State.grant
  split
  · exact .refl s
  · split
    · exact .grantTo s _
    · exact .refl s

theorem Internal.engineFree : Internal s s.engineFree := .of_eq rfl rfl rfl rfl rfl rfl

theorem findBooking_find {ref : Text} {k : Nat} {b : Booking} (h : findBooking s ref = .ok (k, b)) :
    tableFind k s.book.records = some b := by
  unfold findBooking at h
  split at h
  · cases h
  · split at h
    · cases h
    · split at h
      · cases h
      · cases h; assumption

theorem Internal.formLeg (h : Handle) (a : Nat) (ref : Text) : Internal s (s.formLeg h a ref).1 := by
  unfold State.formLeg
  split
  · exact .refl s
  · rename_i k b hk
    have hf := findBooking_find s hk
    split
    · rename_i hst
      simp only [State.claim]
      split
      · refine ⟨rfl, rfl, rfl, rfl, rfl, id, fun hb => hb.put hf ?_, id⟩
        simp [Booking.counted, hst]
      · refine ⟨rfl, rfl, rfl, rfl, rfl, id, fun hb => hb.put hf ?_, fun hr => hr.moveBooked _ _ _⟩
        simp [Booking.counted, hst]
    all_goals exact .refl s

theorem Internal.formLegs (h : Handle) (a : Nat) (refs : List Text) : Internal s (s.formLegs h a refs).1 := by
  induction refs generalizing s with
  | nil => exact .refl s
  | cons ref rest ih => exact (Internal.formLeg s h a ref).trans (ih _)

theorem Internal.identificationTold (n : Lane) (v : Fin 64) : Internal s (s.identificationTold n v) := by
  unfold State.identificationTold
  split
  · exact .refl s
  · exact .ite (.turnAway s n v _ _) (.ite (Internal.trans (.ite (.stopDwell s n) (.refl s)) (.testChecking _ n))
      (.refl s))

theorem Internal.identify (op : Ident) : Internal s (s.identify op) := by
  unfold State.identify
  split
  · exact .refl s
  · refine .ite ?_ (.refl s)
    exact (((Internal.formLegs s _ _ _).trans (.modVisit _ _ _)).trans (.earlyTest _ _ _)).trans
      (.identificationTold _ _ _)

/-! ### The booking requests at completion -/

/-- A BOOK_CREATE that no check refuses finds the book with a free slot (R12). -/
theorem live_lt_of_createCheck {r : CreateReq} (h : createCheck s r = none) : s.book.live < 8192 := by
  by_contra hl
  have hl : Config.bookSlots ≤ s.book.live := Nat.le_of_not_lt hl
  revert h
  simp only [createCheck, if_pos hl]
  generalize (s.book.lookup r.ref).isSome = e
  split
  · simp
  · split
    · simp
    · split
      · simp
      · split
        · simp
        · split <;> simp

theorem Internal.freeBooking {slot : Nat} {b : Booking} (hf : tableFind slot s.book.records = some b) :
    Internal s (freeBooking s slot b) := by
  refine ⟨rfl, rfl, rfl, rfl, rfl, id, fun hk => ?_, fun hr => by
    simp only [Machine.freeBooking]; split
    · exact hr.subBooked _ _
    · exact hr⟩
  have := hk.counted_le hf
  refine hk.remove hf ?_ _
  simp only [Booking.counted, Book.remove] at this ⊢
  split <;> simp_all

theorem Internal.completeBooking (req : BookReq) : Internal s (completeBooking s req).state := by
  cases req with
  | create r =>
    show Internal s (completeCreate s r).state
    unfold completeCreate
    split
    · exact .refl s
    · rename_i hc
      exact ⟨rfl, rfl, rfl, rfl, rfl, id, fun hk =>
        hk.insert (live_lt_of_createCheck s hc) (by simp [CreateReq.booking]), fun hr => hr.addBooked _ _⟩
  | amend r =>
    show Internal s (completeAmend s r).state
    unfold completeAmend
    split
    · exact .refl s
    · split
      · exact .refl s
      · split
        · exact .refl s
        · split
          · exact .refl s
          · rename_i hf _ _
            exact ⟨rfl, rfl, rfl, rfl, rfl, id, fun hk => hk.put hf rfl, fun hr => hr.moveBooked _ _ _⟩
  | cancel ref =>
    show Internal s (completeCancel s ref).state
    unfold completeCancel
    split
    · exact .refl s
    · rename_i hf
      split <;> first | exact .refl s | exact .freeBooking s (findBooking_find s hf)
  | retire ref =>
    show Internal s (completeRetire s ref).state
    unfold completeRetire
    split
    · exact .refl s
    · rename_i hf
      split
      · exact .refl s
      · exact .refl s
      · exact .freeBooking s (findBooking_find s hf)
      · split
        · exact .refl s
        · split
          · exact .refl s
          · exact .freeBooking s (findBooking_find s hf)
  | query ref =>
    show Internal s (completeQuery s ref).state
    unfold completeQuery
    split <;> exact .refl s
  | scan f st =>
    show Internal s (completeScan s f st).state
    unfold completeScan
    split
    · exact .refl s
    · split <;> exact .refl s

/-! ### Retirement -/

theorem Internal.retireOne : Internal s s.retireOne := by
  unfold State.retireOne
  split
  · exact .refl s
  · exact ⟨rfl, rfl, rfl, rfl, rfl, id, fun hb => hb.sweep _, fun hr => hr.advance⟩

theorem Internal.retireLoop (minute fuel : Nat) : Internal s (retireLoop minute fuel s) := by
  induction fuel generalizing s with
  | zero => exact .refl s
  | succ fuel ih =>
    unfold Machine.retireLoop
    exact .ite ((Internal.retireOne s).trans (ih _)) (.refl s)

theorem Internal.retireDue : Internal s s.retireDue := .retireLoop s _ _

/-! ### Lane events -/

theorem Internal.setLoop (n : Lane) (p : Loop) (b : Bool) : Internal s (s.setLoop n p b) :=
  .of_eq rfl rfl rfl rfl rfl rfl

theorem Internal.takeExit (n : Lane) (level : Bool) {t : State} (h : Internal s t) :
    Internal s (s.takeExit n level t) := .ite (.modLane s n _) (.ite h (.refl s))

theorem Internal.takeLoop (n : Lane) (p : Loop) (level : Bool) : Internal s (s.takeLoop n p level) := by
  unfold State.takeLoop
  split
  · unfold State.loopResident
    split
    · exact .ite (.refl s) (.modLane s n _)
    · exact .ite ((Internal.modVisit s _ _).trans (.loadDwell _ n _ _)) (.refl s)
    · exact .ite (.takeExit s n _ (.departVisit s n _)) (.refl s)
  · unfold State.loopEmpty
    split
    · exact .ite (.takeEntry s n) (.leaveWait s n)
    · exact .refl s
    · exact .ite (.takeExit s n _ (.afterDeparture s n)) (.refl s)

theorem Internal.setFlag (n : Lane) (k : FlagKind) : Internal s (s.setFlag n k) :=
  (Internal.modLane s n _).trans (.join _ _)

theorem Internal.markLoss (n : Lane) : Internal s (s.markLoss n) := by
  unfold State.markLoss
  split
  · exact .modVisit s _ _
  · exact .refl s

theorem Internal.frameArrives (n : Lane) (chars : List RxChar) : Internal s (s.frameArrives n chars) := by
  unfold State.frameArrives
  split
  · exact .setFlag s n _
  · exact (Internal.setFlag s n _).trans (.markLoss _ n)
  · split
    · exact .setFlag s n _
    · exact .ite ((Internal.setFlag s n _).trans (.markLoss _ n)) (.modLane s n _)

theorem Internal.requestIdent (n : Lane) (v : Fin 64) (refs : List Text) : Internal s (s.requestIdent n v refs) :=
  .of_eq rfl rfl rfl rfl rfl rfl

theorem Internal.handOff (n : Lane) (f : LaneFrame) : Internal s (s.handOff n f) := by
  unfold State.handOff
  split
  · exact .setFlag s n _
  · split
    · exact .modVisit s _ _
    · exact .modVisit s _ _
    · exact .modVisit s _ _
    · exact .takeScan s n _ _
    · exact .ite (.requestIdent s n _ _) (.setFlag s n _)

theorem Internal.takeFrame (n : Lane) : Internal s (s.takeFrame n) := by
  unfold State.takeFrame
  split
  · exact .refl s
  · exact .ite (.refl s) ((Internal.modLane s n _).trans (.handOff _ n _))

theorem Internal.approachExpires (n : Lane) (v : Fin 64) : Internal s (s.approachExpires n v) :=
  (((Internal.takeExpiry s n).trans (.modVisit _ v _)).trans (.enterHeld _ n v)).trans (.settleNotice _ n v)

theorem Internal.settleExpires (n : Lane) (v : Fin 64) (x : Visit) : Internal s (s.settleExpires n v x) := by
  unfold State.settleExpires
  exact (((Internal.takeExpiry s n).trans (.modVisit _ v _)).trans (.settleNotice _ n v)).trans
    (Internal.trans (.ite (.refl _) (.loadDwell _ n _ _)) (.testChecking _ n))

theorem Internal.cardExpires (n : Lane) (v : Fin 64) : Internal s (s.cardExpires n v) :=
  ((Internal.takeExpiry s n).trans (.modVisit _ v _)).trans (.testChecking _ n)

theorem Internal.holdExpires (n : Lane) (v : Fin 64) (x : Visit) : Internal s (s.holdExpires n v x) := by
  unfold State.holdExpires
  exact (Internal.takeExpiry s n).trans (.ite (.modVisit _ v _) (.turnAway _ n v _ _))

theorem Internal.yardWaitExpires (n : Lane) (v : Fin 64) : Internal s (s.yardWaitExpires n v) :=
  (((Internal.takeExpiry s n).trans (.leaveQueue _ _)).trans (.modVisit _ v _)).trans (.enterHeld _ n v)

/-! ### The requests that reset lanes, close visits and decide -/

theorem Internal.abortVisit (n : Lane) (v : Fin 64) : Internal s (s.abortVisit n v) := by
  unfold State.abortVisit
  exact (((((Internal.rejectVisit s v _).trans (.withdraw _ n)).trans (.emptySlot _ n)).trans (.modLane _ n _)).trans
    (.startReleasing _ n)).trans (.modSign _ n _)

theorem Internal.resetLane (n : Lane) (why : RejectReason) : Internal s (s.resetLane n why) := by
  unfold State.resetLane
  refine Internal.trans ?_ ((((Internal.withdraw _ n).trans (.emptySlot _ n)).trans (.modLane _ n _)).trans
    (.modSign _ n _))
  split
  · exact .rejectVisit s _ why
  · exact .refl s

theorem Internal.closeIf (n : Lane) : Internal s (s.closeIf n) := .ite (.completeClosing s n) (.refl s)

theorem Internal.leaveChanges (v : Fin 64) : Internal s (s.leaveChanges v) :=
  ⟨rfl, rfl, rfl, rfl, rfl, fun h => h.filter _, id, id⟩

theorem Internal.handOn (v : Fin 64) : Internal s (s.handOn v) := by
  unfold State.handOn
  split
  · exact .refl s
  · exact .openVisit s _ v

theorem Internal.closeVisit (v : Fin 64) (x : Visit) : Internal s (s.closeVisit v x) := by
  unfold State.closeVisit
  have h0 : ∀ t : State, Internal t (t.freeSlot v) := fun t => .of_eq rfl rfl rfl rfl rfl rfl
  exact ((((Internal.releaseLegs s _ _).trans (.foldl (fun t l => .releaseBooking t l _) _ _)).trans
    (.leaveChanges _ v)).trans (h0 _)).trans (.handOn _ v)

theorem Internal.chooseBooking (h : Handle) (l : Leg) (c : Choice) : Internal s (s.chooseBooking h l c) :=
  .ite (.admitBooking s l h) (.revertBooking s l h)

theorem Internal.admitByHost (n : Lane) (v : Fin 64) (x : Visit) (cs : List Choice) :
    Internal s (s.admitByHost n v x cs) := by
  unfold State.admitByHost
  exact (((Internal.stopDwell s n).trans (.foldl (fun t p => .chooseBooking t _ _ _) _ _)).trans
    (.modVisit _ v _)).trans (.allocate _ n v)

theorem Internal.decide (n : Lane) (v : Fin 64) (x : Visit) (d : Decision) : Internal s (s.decide n v x d) := by
  unfold State.decide
  split
  · exact .turnAway s n v _ _
  · exact .ite (.admitByHost s n v x _) (.turnAway s n v _ _)

theorem Internal.finishLeg (v : Fin 64) (i : Nat) (l : Leg) : Internal s (s.finishLeg v i l) := by
  unfold State.finishLeg
  exact (((Internal.convertLeg s _ i l).trans (.modVisit _ v _)).trans (.retry _)).trans (.startJobs _)

theorem Internal.restart : Internal s s.restart := by
  unfold State.restart
  have h0 : Internal s (s.modLink fun l => { l with changes := [] }) :=
    ⟨rfl, rfl, rfl, rfl, rfl, fun _ => List.nodup_nil, id, id⟩
  have h1 : ∀ t : State, Internal t ({ t with openWait := [], yard := { t.yard with queue := [] } } : State) :=
    fun t => .of_eq rfl rfl rfl rfl rfl rfl
  have h2 : ∀ (n : Lane) (t : State), Internal t (restartLane n t) := fun n t => by
    unfold restartLane State.setMode
    exact (Internal.resetLane t n _).trans (.modLane _ n _)
  exact (h0.trans (.forLanes h2 _)).trans ((h1 _).trans (.startJobs _))

theorem Internal.clearCounts : Internal s s.clearCounts := .forLanes (fun n t => .modGrade t n _) s

end Sys2Proof.Machine
end

