-- ==== Sys2Proof/Laws/Requests.lean ====
section
/-!
SUPPORT. What starting a host request does, said once: `takeRequest` and `takeBooking` with a ready frame, with fields
that do not decode, and with nothing to start.
-/

namespace Sys2Proof.Machine

variable {α : Type} {s : State} {code : Byte} {f : ReqFrame} {rest : List ReqFrame}

theorem startable_of_ready (h : s.Ready code f rest) : s.startable code = some (f, s.taken rest) := by
  simp only [State.startable, h.queue]
  rw [if_pos ⟨h.code, h.none, h.place⟩]
  rfl

/-- A request whose fields decode is answered by its owner, in the state without its frame. -/
theorem takeRequest_ready {dec : Dec α} {serve : α → State → Answer} {a : α} (h : s.Ready code f rest)
    (hd : decodeAll dec f.fields = some a) :
    takeRequest code dec serve s =
      (serve a (s.taken rest)).state.answered f (serve a (s.taken rest)).result (serve a (s.taken rest)).fields := by
  simp only [takeRequest, startable_of_ready h, hd]
  rfl

/-- A request whose fields do not decode is refused with BAD_PARAM (R204). -/
theorem takeRequest_undecoded {dec : Dec α} {serve : α → State → Answer} (h : s.Ready code f rest)
    (hd : decodeAll dec f.fields = none) :
    takeRequest code dec serve s = (s.taken rest).answered f .badParam [] := by
  simp only [takeRequest, startable_of_ready h, hd]
  rfl

/-- With nothing to start, nothing happens. -/
theorem takeRequest_none {dec : Dec α} {serve : α → State → Answer} (h : s.startable code = none) :
    takeRequest code dec serve s = s := by
  simp only [takeRequest, h]

/-- A booking request whose fields decode is in execution, with no response yet. -/
theorem takeBooking_ready {dec : Dec BookReq} {req : BookReq} (h : s.Ready code f rest)
    (hd : decodeAll dec f.fields = some req) :
    takeBooking code dec s =
      { s.taken rest with link := { (s.taken rest).link with exec := some ⟨f.code, f.tag, false, .booking req⟩ } } := by
  simp only [takeBooking, startable_of_ready h, hd]
  rfl

theorem takeBooking_undecoded {dec : Dec BookReq} (h : s.Ready code f rest) (hd : decodeAll dec f.fields = none) :
    takeBooking code dec s = (s.taken rest).answered f .badParam [] := by
  simp only [takeBooking, startable_of_ready h, hd]
  rfl

theorem takeBooking_none {dec : Dec BookReq} (h : s.startable code = none) : takeBooking code dec s = s := by
  simp only [takeBooking, h]

/-- With power, a step that the part takes happens. -/
theorem live_on (h : s.prst = false) (t : State) : live s t = .next t := by simp [live, h]

/-- While PRST is held nothing happens (R217). -/
theorem live_off (h : s.prst = true) (t : State) : live s t = .next s := by simp [live, h]

end Sys2Proof.Machine
end

