-- ==== Sys2Proof/Tests/Slice0.lean ====
section
/-!
SUPPORT. Tests: the smoke test of WellFormed, the worked examples of the manual, and, for every statement of
Certificates/Slice0/Obligations.lean that has hypotheses, a concrete state and operands that meet them
(`test_witness_…`), with values at the ends of the ranges that its clauses name. Expected values are the manual's.
-/

set_option maxRecDepth 20000

namespace Sys2Proof.Tests

open Sys2Proof.Machine

/-! ### Small states -/

/-- The frame of a request, with tag 0102h. -/
def frame (code : Byte) (fields : List Byte) : ReqFrame := ⟨code, 0x0102#16, fields⟩

/-- A state with one request frame queued. -/
def ask (s : State) (code : Byte) (fields : List Byte) : State := { s with link := { s.link with requests := [frame code fields] } }

/-- The state that a command answers. -/
def after (c : Instr) (s : State) : State :=
  match exec c s with
  | .next t => t
  | .fault _ | .refused _ => s

/-- The state that a step answers. -/
def stepped (s : State) : State :=
  match step s with
  | .next t => t
  | .fault _ | .refused _ => s

/-- The newest response: its result and its fields. -/
def answer (c : Instr) (s : State) : Option (Result × List Byte) :=
  (after c s).link.responses.getLast?.map fun r => (r.result, r.fields)

/-- The result of the newest response. -/
def result (c : Instr) (s : State) : Option Result := (answer c s).map fun p => p.1

/-- A lane in AUTO with a resident visit. -/
def seat (n : Lane) (v : Fin 64) (x : Visit) (s : State) : State :=
  { s with
    lanes := s.lanes.set n { s.lane n with mode := .auto, resident := some v }
    visits := s.visits.set v { s.visits[v] with visit := some x }
    freeCount := s.freeCount - 1 }

/-- An open visit, in a lane or not. -/
def visitAt (st : VisitState) : Visit := { Visit.opened 0 500 with state := st }

/-- A lane whose dwell timer, loaded from a limit, has expired once. -/
def expired (n : Lane) (k : LimitKind) (s : State) : State :=
  { s with lanes := s.lanes.set n { s.lane n with dwell := ⟨.stopped, 0, k, 1⟩ } }

/-- A ring of two windows, 480 and 510, with E = 30, G = 15 and R = 2. -/
def ring2 : Ring :=
  ⟨some 30, [⟨480, .all 100, .all 0, .all 0⟩, ⟨510, .all 100, .all 0, .all 0⟩], .all 100, 30, 15, 2⟩

/-- A booking in window 480. -/
def booking (st : BookingState) (window : Option Nat) (visit : Option Handle) : Booking :=
  ⟨Text.of "EXA00101", .exportFull, st, window, 2, some (Text.of "ZKRU4219071"), none, [], some .sound, some 3, none, visit⟩

/-- A book with one booking, in slot 8191. -/
def bookOf (b : Booking) : Book :=
  { (⟨[], [], 0, if b.state = .noShow then 1 else 0⟩ : Book).insert 8191 b with live := 1 }

/-- A state with that ring and that book at minute 500. -/
def withBook (b : Booking) : State :=
  { State.reset with book := bookOf b, ring := ring2, time := { TimeBase.reset with minute := 500, clockSet := true } }

/-- A booking request in flight on the index engine. -/
def flying (s : State) (req : BookReq) : State :=
  { s with
    engine := { s.engine with lastGranted := 0, inFlight := some .host }
    link := { s.link with exec := some ⟨0x10#8, 0x0102#16, false, .booking req⟩ } }

theorem ask_ready {s : State} (code : Byte) (fields : List Byte) (h1 : s.prst = false) (h2 : s.link.exec = none)
    (h3 : s.link.responses = []) : (ask s code fields).Ready code (frame code fields) [] :=
  ⟨h1, rfl, rfl, h2, by simp [ask, h3]⟩

/-- A request with these fields is ready to start right after reset. -/
theorem reset_ready (code : Byte) (fields : List Byte) :
    (ask .reset code fields).Ready code (frame code fields) [] := ask_ready code fields rfl rfl rfl

/-! ### WellFormed -/

theorem test_wf_operation_write_refused : (Instr.transferOperationError 0x01#8 0).wf = false := by decide
theorem test_wf_operation_read_refused : (Instr.transferOperationError 0x02#8 0).wf = false := by decide
theorem test_wf_operation_zero : (Instr.transferOperationError 0x00#8 0).wf = true := by decide
theorem test_wf_operation_last : (Instr.transferOperationError 0xFF#8 65535).wf = true := by decide

/-! ### The worked examples of the manual -/

/-- R4's examples. -/
theorem test_container_check :
    containerCheck (Text.of "ZKRU4219071") = .valid ∧ containerCheck (Text.of "ZKRU4219077") = .badCheckDigit
    ∧ containerCheck (Text.of "ZKR04219071") = .malformed ∧ containerCheck (Text.of "MTLU1234570") = .valid
    ∧ containerCheck (Text.of "MTLU1234576") = .badCheckDigit := by decide

/-- 00_scope, Text; R90's example: "exa-00411" is EXA00411. -/
theorem test_normalise :
    normalise ([0x65, 0x78, 0x61, 0x2D, 0x30, 0x30, 0x34, 0x31, 0x31] : List Byte) = Text.of "EXA00411" := by decide

/-- R5, and the home buckets of R8's example. -/
theorem test_home_bucket :
    homeBucket (Text.of "TRK406QI") = 16382 ∧ homeBucket (Text.of "TRK406QJ") = 16383
    ∧ homeBucket (Text.of "TRK406QK") = 0 ∧ homeBucket (Text.of "TRK406QL") = 1
    ∧ homeBucket (Text.of "TRK40IPB") = 16382 ∧ homeBucket (Text.of "TRK40IPC") = 16383 := by decide

/-- The five bookings of R8's example, in the order they are created. -/
def cluster : Book :=
  ["TRK406QI", "TRK40IPB", "TRK406QK", "TRK40IPC", "TRK406QL"].zipIdx.foldl
    (fun b p => b.insert p.2 { booking .booked (some 480) none with ref := Text.of p.1 }) ⟨[], [], 0, 0⟩

theorem test_index_insert : cluster.index = [(0, 2), (1, 3), (2, 4), (16382, 0), (16383, 1)] := by decide
theorem test_index_lookup :
    cluster.lookup (Text.of "TRK40IPC") = some 3 ∧ cluster.lookup (Text.of "TRK406QJ") = none := by decide
theorem test_index_delete : (cluster.remove 1).index = [(0, 2), (1, 4), (16382, 0), (16383, 3)] := by decide

/-- R33, at the ends of the ON_TIME range of window 600 with L = 30, E = 30 and G = 15. -/
theorem test_arrival :
    ring2.arrivalTest 569 600 = .early ∧ ring2.arrivalTest 570 600 = .onTime ∧ ring2.arrivalTest 644 600 = .onTime
    ∧ ring2.arrivalTest 645 600 = .late := by decide

/-- R28's example: the newest of the 96 starts. -/
theorem test_plan :
    ((ring2.plan 480 30 30 15 2).windows.getLast?.map (·.start)) = some 3330
    ∧ (ring2.plan 480 30 30 15 2).windows.length = 96 := by decide

/-- The parameters of the grader's first example (R127). -/
def exampleParams : Params :=
  { Params.default with dent := ⟨4096, 0, -512⟩, hole := ⟨0, 5120, 0⟩, rust := ⟨-256, 0, 3072⟩ }

/-- R127 to R130: the grades and the class of the example's scan, and of its variant. -/
theorem test_grading :
    (exampleParams.severity ⟨300, 40, 500, 85⟩, exampleParams.severity ⟨20, 0, 100, 90⟩,
      exampleParams.severity ⟨150, 60, 200, 70⟩, exampleParams.severity ⟨40, 0, 30, 100⟩) = (258, 22, 172, 23)
    ∧ exampleParams.grade ⟨0, 0, 0, 40⟩ = .unseen ∧ exampleParams.grade ⟨300, 40, 500, 85⟩ = .major
    ∧ classOf ⟨.major, .clean, .unseen, .minor, .clean⟩ = .major
    ∧ classOf ⟨.unseen, .clean, .unseen, .minor, .clean⟩ = .incomplete := by decide

/-- R127's rounding boundary, and its clamps. -/
theorem test_grading_clamps :
    exampleParams.dent.component ⟨10, 0, 400, 100⟩ = 0 ∧ exampleParams.hole.component ⟨0, 1000, 0, 100⟩ = 1023
    ∧ (⟨1, 0, 0⟩ : MixRow).component ⟨2048, 0, 0, 100⟩ = 1 ∧ (⟨-1, 0, 0⟩ : MixRow).component ⟨2049, 0, 0, 100⟩ = 0 := by
  decide

/-- R95's and R96's example: the container read set of position 1, and its resolution (R99). -/
theorem test_read_set :
    enterRead 6 (Text.of "ZKRU4219071") 88 [⟨Text.of "ZKRU4219077", 91⟩]
      = [⟨Text.of "ZKRU4219077", 91⟩, ⟨Text.of "ZKRU4219071", 88⟩]
    ∧ enterRead 8 (Text.of "AB12CD") 66 [⟨Text.of "AB12CD", 58⟩] = [⟨Text.of "AB12CD", 66⟩]
    ∧ resolvePos 50 [⟨Text.of "ZKRU4219077", 91⟩, ⟨Text.of "ZKRU4219071", 88⟩]
      = .resolved ⟨Text.of "ZKRU4219071", 88⟩
    ∧ resolvePos 50 [⟨Text.of "MTLU1234570", 42⟩, ⟨Text.of "MTLU1234576", 75⟩]
      = .checkFail ⟨Text.of "MTLU1234576", 75⟩ := by decide

/-- The verdict of the seal example's set, with JV204412 at a confidence and read 2 at another (R115, R116). -/
def sealVerdictOf (c2 c3 floor : Nat) (weak : Bool) : SealVerdict :=
  (sealFindings ⟨60, 50, floor, weak⟩
    ⟨[⟨Text.of "JV204411", 82⟩, ⟨Text.of "JV2O4412", c2⟩, ⟨Text.of "JV204412", c3⟩], false⟩
    [Text.of "JV204411", Text.of "JV204412"]).verdict

theorem test_seals :
    sealVerdictOf 64 73 70 false = .intact ∧ sealVerdictOf 64 55 70 false = .weak
    ∧ sealVerdictOf 64 55 70 true = .intact ∧ sealVerdictOf 78 73 70 false = .mismatch
    ∧ sealVerdictOf 64 73 85 false = .weak := by decide

/-- R186: the leg lines of the sign example fit a LINE4 sign; the route of the two-line example does not fit. -/
theorem test_leg_line :
    lineWidth [Text.of "BLOCK", Text.of "A09", Text.of "NORTHQUAY3"] = 20
    ∧ lineWidth [Text.of "BLOCK", Text.of "C12", Text.of "SOUTHSTACKS"] = 21 := by decide

/-- R219: the check of one byte 00h, and of the digits 1 to 9, as CRC tables of this polynomial and start give them. -/
theorem test_frame_check :
    frameCheck [0x00#8] = 0xE1F0#16
    ∧ frameCheck [0x31, 0x32, 0x33, 0x34, 0x35, 0x36, 0x37, 0x38, 0x39] = 0x29B1#16 := by decide

/-! ### Witnesses: the queue of commands, PRST and the link -/

theorem test_witness_step :
    step { State.reset with pending := [.tickEvent, .minuteEvent] }
      = exec .tickEvent { State.reset with pending := [.minuteEvent] } := rfl

/-- The last period but one, and the last, of the first tick (R213). -/
theorem test_witness_idle :
    (let t := stepped { State.reset with time := { TimeBase.reset with refCount := 1599998 } };
      t.time.refCount = 1599999 ∧ t.time.phase = 0)
    ∧ (let t := stepped { State.reset with time := { TimeBase.reset with refCount := 1599999 } };
      t.time.refCount = 0 ∧ t.time.phase = 1 ∧ t.time.fine = 1)
    ∧ (stepped { State.reset with prst := true }).time.refCount = 0 := by decide

theorem test_witness_prst :
    ({ State.reset with prst := true } : State).prst = true ∧ isPinLevel .tickEvent = false
    ∧ (after (.loopEvent 11 .exit true) { State.reset with prst := true }).loops[(11 : Lane)].exit = true := by decide

/-- A frame of the shortest and of a too short length, a wrong check, and a queue of 15 and of 16 frames (R202). -/
theorem test_witness_request_frame :
    State.reset.prst = false ∧ State.reset.lrst = false ∧ State.reset.link.ignoring = false
    ∧ (let body : List Byte := [0x00, 0x03, 0x01, 0x12, 0x34];
      (after (.requestFrameArrival (body ++ checkBytes body)) .reset).link.requests = [⟨0x01, 0x1234, []⟩]
      ∧ (after (.requestFrameArrival (body ++ [0x00, 0x00])) .reset).link.errorKind = .check
      ∧ (after (.requestFrameArrival (body ++ checkBytes body))
          { State.reset with link := { Link.reset with requests := List.replicate 15 (frame 0 []) } }).link.requests.length = 16
      ∧ (after (.requestFrameArrival (body ++ checkBytes body))
          { State.reset with link := { Link.reset with requests := List.replicate 16 (frame 0 []) } }).link.errorKind = .full)
    ∧ (let body : List Byte := [0x00, 0x02, 0x01, 0x12];
      (after (.requestFrameArrival (body ++ checkBytes body)) .reset).link.errorKind = .frame) := by decide

/-- The longest frame and body that the lengths can name, and the shortest (R219, R220). -/
theorem test_witness_frames :
    (List.replicate 1017 (0x7E#8 : Byte)).length ≤ 1017 ∧ ([] : List Byte).length ≤ 1017
    ∧ (List.replicate 255 (0x7D#8 : Byte)).length ≤ 255
    ∧ State.reset.prst = false ∧ State.reset.lrst = false ∧ State.reset.link.ignoring = false
    ∧ State.reset.link.requests.length < 16 := by decide

/-- A response of 8 bytes, read whole and read one byte short, an empty queue, and LRST asserted (R205, R206). -/
theorem test_witness_read :
    (let s : State := { State.reset with link := { Link.reset with responses := [⟨0x01, 0x1234, .ok, []⟩] } };
      s.prst = false ∧ s.lrst = false ∧ s.link.ignoring = false
      ∧ (after (.readTransfer 8) s).link.responses = []
      ∧ (after (.readTransfer 8) s).link.sdo.take 6 = [0x00, 0x04, 0x01, 0x12, 0x34, 0x00]
      ∧ (after (.readTransfer 7) s).link.responses.length = 1)
    ∧ State.reset.link.responses = [] ∧ (after (.readTransfer 2) .reset).link.sdo = [0x00, 0x00]
    ∧ (after (.readTransfer 2) { State.reset with lrst := true }).link.sdo = [0x00, 0x00] := by decide

/-- LRST released and asserted, with a request in execution (R206); an operation byte that is neither value (R201). -/
theorem test_witness_link_reset :
    State.reset.prst = false ∧ State.reset.lrst = false ∧ State.reset.link.ignoring = false
    ∧ (Instr.transferOperationError 0x03#8 0).wf = true
    ∧ (after (.transferOperationError 0x03#8 0) .reset).link.errorKind = .operation
    ∧ (after (.linkResetAssert false) (flying .reset (.scan none 0))).link.exec.map (·.discard) = some true
    ∧ (after .linkResetRelease (after (.linkResetAssert true) .reset)).lrst = false := by decide

/-- The three transfers that were in progress at an assertion of LRST and end after its release: nothing is taken, no
link error is counted, and the next WRITE is taken again (R206). -/
theorem test_witness_ignored_transfers :
    (let s := after .linkResetRelease (after (.linkResetAssert true) .reset);
      let body : List Byte := [0x00, 0x03, 0x01, 0x12, 0x34];
      let write (s : State) : State := after (.requestFrameArrival (body ++ checkBytes body)) s;
      let wrong (s : State) : State := after (.transferOperationError 0x03#8 0) s;
      s.prst = false ∧ s.lrst = false ∧ s.link.ignoring = true
      ∧ (write s).link.requests = [] ∧ (write (write s)).link.requests.length = 1
      ∧ (wrong s).link.errors = 0 ∧ (wrong (wrong s)).link.errors = 1
      ∧ (let r : State := { s with link := { s.link with responses := [⟨0x01, 0x1234, .ok, []⟩] } };
        (after (.readTransfer 8) r).link.responses.length = 1
        ∧ (after (.readTransfer 8) (after (.readTransfer 8) r)).link.responses = [])) := by decide

/-- The three causes that keep a request from starting (R203). -/
theorem test_witness_not_started :
    requestCode .status = some 0x01#8 ∧ (flying (ask .reset 0x01#8 []) (.scan none 0)).link.exec ≠ none
    ∧ (let s : State := { ask .reset 0x01#8 [] with
        link := { (ask .reset 0x01#8 []).link with responses := List.replicate 16 ⟨0, 0, .ok, []⟩ } };
      16 ≤ s.link.responses.length ∧ (after .status s).link.requests.length = 1)
    ∧ (ask .reset 0x02#8 []).link.requests.head?.map (·.code) ≠ some 0x01#8 := by decide

/-- Too few and too many bytes, and a code that is not in the table of R203 (R204). -/
theorem test_witness_undecoded :
    (ask .reset 0x08#8 []).Ready 0x08#8 (frame 0x08#8 []) []
    ∧ (fieldsDecode .timeSet [] = false ∧ fieldsDecode .timeSet [0, 0, 0, 0, 0] = false
      ∧ fieldsDecode .timeSet [0, 0, 0, 0] = true ∧ [(0x00#8 : Byte)] ≠ [] ∧ requestCode .timeSet = some 0x08#8
      ∧ result .timeSet (ask .reset 0x08#8 []) = some .badParam)
    ∧ (ask .reset 0xFF#8 [0x01]).Ready 0xFF#8 (frame 0xFF#8 [0x01]) []
    ∧ result .unknownRequest (ask .reset 0xFF#8 [0x01]) = some .unknownRequest :=
  ⟨reset_ready _ _, by decide, reset_ready _ _, by decide⟩

theorem test_witness_unknown_code : ∀ c : Instr, requestCode c ≠ some 0xFF#8 := by
  intro c; cases c <;> simp [requestCode]

/-- Lanes 0 and 13 (R47, R85). -/
theorem test_witness_lane_range :
    (ask .reset 0x23#8 [0x00]).Ready 0x23#8 (frame 0x23#8 [0x00]) []
    ∧ (ask .reset 0x24#8 [0x0D, 0x00, 0x00, 0x00]).Ready 0x24#8 (frame 0x24#8 [0x0D, 0x00, 0x00, 0x00]) []
    ∧ (12 < (0x0D#8 : Byte).toNat ∧ result .laneReset (ask .reset 0x23#8 [0x00]) = some .badParam
      ∧ result .laneReset (ask .reset 0x23#8 [0x0C]) = some .ok
      ∧ result .pointWrite (ask .reset 0x24#8 [0x0D, 0x00, 0x00, 0x00]) = some .badParam) :=
  ⟨reset_ready _ _, reset_ready _ _, by decide⟩

/-- Slot 64 and generation 16, a free slot 63, and an open slot at another generation (R61). -/
theorem test_witness_handle :
    (∀ fields, (ask .reset 0x28#8 fields).Ready 0x28#8 (frame 0x28#8 fields) [])
    ∧ (ask (seat 0 63 (visitAt .held) .reset) 0x28#8 [0x3F, 0x0F]).Ready 0x28#8 (frame 0x28#8 [0x3F, 0x0F]) []
    ∧ (fieldsDecode .visitQuery [0x40, 0x00] = true ∧ requestCode .visitQuery = some 0x28#8
      ∧ result .visitQuery (ask .reset 0x28#8 [0x40, 0x00]) = some .badParam
      ∧ result .visitQuery (ask .reset 0x28#8 [0x00, 0x10]) = some .badParam
      ∧ State.reset.visit 63 = none ∧ result .visitQuery (ask .reset 0x28#8 [0x3F, 0x0F]) = some .notFound
      ∧ ((seat 0 63 (visitAt .held) .reset).visit 63).isSome = true
      ∧ result .visitQuery (ask (seat 0 63 (visitAt .held) .reset) 0x28#8 [0x3F, 0x0F]) = some .staleHandle) :=
  ⟨fun _ => reset_ready _ _, ask_ready _ _ rfl rfl rfl, by decide⟩

/-- STATUS right after reset: no live booking, 64 free slots, D = 1,600,000 (R212). An empty change set, and one of two
entries (R209). -/
theorem test_witness_status :
    (ask .reset 0x01#8 []).Ready 0x01#8 (frame 0x01#8 []) [] ∧ (ask .reset 0x02#8 []).Ready 0x02#8 (frame 0x02#8 []) []
    ∧ ((answer .status (ask .reset 0x01#8 [])).map (fun p => p.2.take 18)
        = some [0, 0, 0, 0, 64, 0, 0, 0, 0, 0, 0, 0, 0, 0x00, 0x18, 0x6A, 0x00, 0]
      ∧ State.reset.link.changes = [] ∧ result .changeNext (ask .reset 0x02#8 []) = some .notFound
      ∧ (let s : State := { State.reset with link := { Link.reset with changes := [.lane 11, .visit 63] } };
        s.link.changes = [.lane 11, .visit 63] ∧ (after .changeNext (ask s 0x02#8 [])).link.changes = [.visit 63]
        ∧ (answer .changeNext (ask s 0x02#8 [])).bind (·.2.getLast?) = some 0x01#8)) :=
  ⟨reset_ready _ _, reset_ready _ _, by decide⟩

/-- Masks 07h and 08h (R211). -/
theorem test_witness_attention :
    (ask .reset 0x03#8 [0x07]).Ready 0x03#8 (frame 0x03#8 [0x07]) []
    ∧ (ask .reset 0x04#8 [0x08]).Ready 0x04#8 (frame 0x04#8 [0x08]) []
    ∧ (answer .attnEnableSet (ask .reset 0x03#8 [0x07]) = some (.ok, [1, 1, 1, 0, 0, 0, 0])
      ∧ result .attnEnableClear (ask .reset 0x04#8 [0x08]) = some .badParam
      ∧ (after .gateRestart (ask .reset 0x05#8 [])).link.attnVisit = false) :=
  ⟨reset_ready _ _, reset_ready _ _, by decide⟩

/-- A gate with a resident visit on lane 12 in slot 63 (R88, R218). -/
def restartState : State := seat 11 63 (visitAt .held) .reset

/-- Lane 12 alone has a resident visit. -/
theorem restart_residents (n : Lane) (v : Fin 64) (h : (restartState.lane n).resident = some v) : n = 11 ∧ v = 63 := by
  have key : ∀ m : Lane, m ≠ 11 → (restartState.lane m).resident = none := by decide
  by_cases hn : n = 11
  · subst hn; cases h; exact ⟨rfl, rfl⟩
  · rw [key n hn] at h; cases h

theorem test_witness_gate_restart :
    (ask restartState 0x05#8 []).Ready 0x05#8 (frame 0x05#8 []) []
    ∧ (∀ (n : Lane) (v : Fin 64), (restartState.lane n).resident = some v → (restartState.visit v).isSome = true)
    ∧ (∀ (n m : Lane) (v : Fin 64), (restartState.lane n).resident = some v →
        (restartState.lane m).resident = some v → n = m)
    ∧ (let t := after .gateRestart (ask restartState 0x05#8 []);
      (restartState.lane 11).resident = some 63
      ∧ answer .gateRestart (ask restartState 0x05#8 []) = some (.ok, [1])
      ∧ (t.visit 63).map (·.rejectReason) = some (some .restart)
      ∧ (t.sign 11).job = .sending ⟨[[Text.of "LANE", Text.of "12", Text.of "STAFFED"], [], [], []], 1, 1, 1, none, false⟩) :=
  ⟨ask_ready _ _ rfl rfl rfl, fun n v h => by rw [(restart_residents n v h).2]; decide,
    fun n m v h g => (restart_residents n v h).1.trans (restart_residents m v g).1.symm, by decide⟩

/-! ### Witnesses: the time base and the windows -/

/-- A dwell timer at counts 2 and 1, one-shot and repeating (R67). -/
theorem test_witness_tick :
    State.reset.prst = false
    ∧ (LaneUnit.tick { LaneUnit.reset with mode := .auto, dwell := ⟨.oneShot, 1, .approach, 0⟩ }).dwell
      = ⟨.stopped, 0, .approach, 1⟩
    ∧ (LaneUnit.tick { LaneUnit.reset with mode := .auto, dwell := ⟨.oneShot, 2, .approach, 0⟩ }).dwell
      = ⟨.oneShot, 1, .approach, 0⟩
    ∧ (LaneUnit.tick { LaneUnit.reset with mode := .auto, dwell := ⟨.repeating, 1, .clear, 0⟩ }).dwell
      = ⟨.repeating, 600, .clear, 1⟩
    ∧ (after .tickEvent { State.reset with time := { TimeBase.reset with phase := 599 } }).time.minute = 1
    ∧ (after .tickEvent { State.reset with time := { TimeBase.reset with phase := 599, minute := 4294967295 } }).time.minute
      = 4294967295 := by decide

/-- R213's F at its two ends. -/
theorem test_witness_sixteen_ticks : ({ TimeBase.reset with f := 15 } : TimeBase).f ≤ 15
    ∧ TimeBase.reset.f ≤ 15 := by decide

/-- The ends of the ranges of D and F (R215). -/
theorem test_witness_tick_set :
    (∀ fields, (ask .reset 0x09#8 fields).Ready 0x09#8 (frame 0x09#8 fields) [])
    ∧ ((after .tickSet (ask .reset 0x09#8 (eOpt e4 (some 2000000) ++ eOpt e1 (some 15)))).time.pendD = 2000000
      ∧ (after .tickSet (ask .reset 0x09#8 (eOpt e4 (some 1000000) ++ eOpt e1 (some 0)))).time.pendD = 1000000
      ∧ result .tickSet (ask .reset 0x09#8 (eOpt e4 (some 2000001) ++ eOpt e1 none)) = some .badParam
      ∧ result .tickSet (ask .reset 0x09#8 (eOpt e4 (some 999999) ++ eOpt e1 none)) = some .badParam
      ∧ result .tickSet (ask .reset 0x09#8 (eOpt e4 none ++ eOpt e1 (some 16))) = some .badParam) :=
  ⟨fun _ => reset_ready _ _, by decide⟩

/-- The ring of R28's example just before and at minute 525, window 480's retirement minute. -/
def timed (minute : Nat) : State := { State.reset with ring := ring2, time := { TimeBase.reset with minute := minute } }

/-- A minute one below, equal, and with a window due or not (R216); the catch-up's retirement that is the last (R31). -/
theorem test_witness_time_set :
    (∀ fields, (ask (timed 500) 0x08#8 fields).Ready 0x08#8 (frame 0x08#8 fields) [])
    ∧ (ring2.OldestDue 525 ∧ ¬ ring2.OldestDue 524)
    ∧ (result .timeSet (ask (timed 500) 0x08#8 (e4 499)) = some .timeBackward
      ∧ answer .timeSet (ask (timed 500) 0x08#8 (e4 500)) = some (.ok, e4 500 ++ e4 0)
      ∧ answer .timeSet (ask (timed 500) 0x08#8 (e4 524)) = some (.ok, e4 524 ++ e4 0)
      ∧ (after .timeSet (ask (timed 500) 0x08#8 (e4 525))).link.exec
        = some ⟨0x08, 0x0102, false, .catchUp 525 0⟩
      ∧ answer .catchUpRetirement (after .timeSet (ask (timed 500) 0x08#8 (e4 525))) = some (.ok, e4 525 ++ e4 1)
      ∧ (after .catchUpRetirement (after .timeSet (ask (timed 500) 0x08#8 (e4 555)))).link.exec
        = some ⟨0x08, 0x0102, false, .catchUp 555 1⟩) :=
  ⟨fun _ => ask_ready _ _ rfl rfl rfl,
      ⟨⟨_, rfl, by decide⟩, by rintro ⟨w, hw, h⟩; cases hw; revert h; decide⟩, by decide⟩

/-- R30's example: at minute 525 window 480 retires alone, and its BOOKED booking becomes NO_SHOW. -/
def minuteState : State :=
  { withBook (booking .booked (some 480) none) with time := { TimeBase.reset with minute := 525, minuteDue := true } }

theorem ring2_kept : ring2.Kept := by
  refine ⟨by decide, fun _ => by decide, fun i a b ha hb => ?_, by decide⟩
  match i with
  | 0 => cases ha; cases hb; rfl
  | 1 => cases hb
  | _ + 2 => cases hb

theorem test_witness_minute :
    minuteState.ring.Kept
        ∧ (minuteState.prst = false ∧ minuteState.time.minuteDue = true ∧ minuteState.catchingUp = false
      ∧ (after .minuteEvent minuteState).ring.windows.map (·.start) = [510, 540]
      ∧ (after .minuteEvent minuteState).book.noShow = 1 ∧ State.reset.time.minuteDue = false) :=
  ⟨ring2_kept, by decide⟩

theorem test_witness_minute_catch_up :
    (let s : State := { minuteState with
        link := { Link.reset with exec := some ⟨0x08#8, 0x0102#16, false, .catchUp 525 0⟩ } };
      s.prst = false ∧ s.time.minuteDue = true
      ∧ ((after .minuteEvent s).ring.windows.map (·.start), (after .minuteEvent s).time.minuteDue) = ([480, 510], false)) := by
  decide

/-- WINDOW_PLAN's checks at the ends of their ranges (R28). -/
theorem test_witness_plan :
    (∀ fields, (ask .reset 0x18#8 fields).Ready 0x18#8 (frame 0x18#8 fields) [])
    ∧ (let s : State := { State.reset with time := { TimeBase.reset with minute := 470, clockSet := true } };
      result .windowPlan (ask .reset 0x18#8 (e4 480 ++ [60, 120, 120, 8])) = some .clockNotSet
      ∧ result .windowPlan (ask s 0x18#8 (e4 480 ++ [60, 120, 120, 8])) = some .ok
      ∧ result .windowPlan (ask s 0x18#8 (e4 480 ++ [60, 121, 120, 8])) = some .badParam
      ∧ result .windowPlan (ask s 0x18#8 (e4 480 ++ [60, 120, 121, 8])) = some .badParam
      ∧ result .windowPlan (ask s 0x18#8 (e4 480 ++ [60, 120, 120, 9])) = some .badParam
      ∧ result .windowPlan (ask s 0x18#8 (e4 480 ++ [59, 120, 120, 8])) = some .badParam
      ∧ result .windowPlan (ask s 0x18#8 (e4 425 ++ [30, 0, 15, 0])) = some .badParam
      ∧ result .windowPlan (ask s 0x18#8 (e4 426 ++ [30, 0, 15, 0])) = some .ok
      ∧ result .windowPlan (ask s 0x18#8 (e4 4294961595 ++ [60, 0, 0, 0])) = some .ok
      ∧ result .windowPlan (ask s 0x18#8 (e4 4294961596 ++ [60, 0, 0, 0])) = some .badParam
      ∧ result .windowPlan (ask { s with book := bookOf (booking .noShow none none) } 0x18#8 (e4 480 ++ [60, 0, 0, 0]))
        = some .notEmpty) :=
  ⟨fun _ => reset_ready _ _, by decide⟩

/-- Quotas 999 and 1000, starts that name a window and none; the window and the plan as a query reports them (R37 to
R40). -/
theorem test_witness_quota :
    (∀ code fields, (ask (timed 500) code fields).Ready code (frame code fields) [])
    ∧ (let unchanged : List Byte := [0, 0, 0];
      result .windowSet (ask (timed 500) 0x19#8 (e4 510 ++ eOpt e2 (some 1000) ++ unchanged)) = some .badParam
      ∧ result .windowSet (ask (timed 500) 0x19#8 (e4 511 ++ eOpt e2 (some 999) ++ unchanged)) = some .noSuchWindow
      ∧ ((after .windowSet (ask (timed 500) 0x19#8 (e4 510 ++ eOpt e2 (some 999) ++ unchanged))).ring.windows.map
          (·.quota.exportFull)) = [100, 999]
      ∧ result .defaultQuota (ask (timed 500) 0x1B#8 (e2 0 ++ e2 0 ++ e2 0 ++ e2 1000)) = some .badParam
      ∧ (after .defaultQuota (ask (timed 500) 0x1B#8 (e2 0 ++ e2 0 ++ e2 0 ++ e2 999))).ring.defaults = ⟨0, 0, 0, 999⟩
      ∧ ring2.windows.find? (·.start == 480) = some ⟨480, .all 100, .all 0, .all 0⟩
      ∧ (answer .windowQuery (ask (timed 500) 0x1C#8 (0x01 :: e4 480))).map (fun p => p.2.take 14)
        = some (e4 480 ++ e4 510 ++ e4 525 ++ e2 100)
      ∧ result .windowQuery (ask (timed 500) 0x1C#8 (0x01 :: e4 481)) = some .noSuchWindow
      ∧ result .windowQuery (ask .reset 0x1C#8 [0x00]) = some .noSuchWindow
      ∧ (answer .windowQuery (ask (timed 500) 0x1C#8 [0x00])).map (fun p => p.2.take 10)
        = some (e1 30 ++ e4 480 ++ e4 510 ++ e1 2)) :=
  ⟨fun _ _ => ask_ready _ _ rfl rfl rfl, by decide⟩

/-- Allowances at and above their ends, and a lowered G that makes window 480 due at 520 (R38). -/
theorem test_witness_allowances :
    (∀ fields, (ask (timed 520) 0x1A#8 fields).Ready 0x1A#8 (frame 0x1A#8 fields) []) ∧ (timed 520).ring.Kept
    ∧ (result .windowSetAllowances (ask (timed 520) 0x1A#8 [1, 121, 0, 0]) = some .badParam
      ∧ result .windowSetAllowances (ask (timed 520) 0x1A#8 [0, 1, 121, 0]) = some .badParam
      ∧ result .windowSetAllowances (ask (timed 520) 0x1A#8 [0, 0, 1, 9]) = some .badParam
      ∧ (after .windowSetAllowances (ask (timed 520) 0x1A#8 [1, 120, 1, 15, 1, 8])).ring.windows.map (·.start)
          = [480, 510]
      ∧ (after .windowSetAllowances (ask (timed 520) 0x1A#8 [0, 1, 10, 0])).ring.windows.map (·.start) = [510, 540]) :=
  ⟨fun _ => ask_ready _ _ rfl rfl rfl, ring2_kept, by decide⟩

/-! ### Witnesses: the Booking Book and the two engines -/

/-- The reference EXA00101 as a host sends it, and the texts of its booking. -/
def refBytes : List Byte := [0x45, 0x58, 0x41, 0x30, 0x30, 0x31, 0x30, 0x31]

/-- BOOK_CREATE's request for the booking of `booking`, for a window. -/
def createReq (window : Nat) : CreateReq :=
  ⟨Text.of "EXA00101", .exportFull, window, 2, some (Text.of "ZKRU4219071"), none, none, some .sound, some 3, none⟩

/-- The six requests start (R203): a scan from the last start that two bytes name, a window at the last gate minute. -/
theorem test_witness_booking_start :
    (∀ code fields, (ask .reset code fields).Ready code (frame code fields) [])
    ∧ (refBytes.length < 256 ∧ normalise refBytes = Text.of "EXA00101"
      ∧ (after .bookQuery (ask .reset 0x14#8 (eRaw refBytes))).link.exec
        = some ⟨0x14, 0x0102, false, .booking (.query (Text.of "EXA00101"))⟩
      ∧ (after .bookScan (ask .reset 0x15#8 (e1 4 ++ e2 65535))).link.exec
        = some ⟨0x15, 0x0102, false, .booking (.scan none 65535)⟩
      ∧ (after .bookCreate (ask .reset 0x10#8 (eRaw refBytes ++ e1 3 ++ e4 4294967295 ++ e1 255
          ++ [0, 0, 0, 0, 0] ++ eOpt e1 (some 255)))).link.exec
        = some ⟨0x10, 0x0102, false, .booking (.create ⟨Text.of "EXA00101", .emptyPickup, 4294967295, 255, none, none,
          none, none, none, some 255⟩)⟩
      ∧ (after .bookAmend (ask .reset 0x11#8 (eRaw refBytes ++ [0, 2, 0, 0, 0, 0, 0, 0]))).link.exec
        = some ⟨0x11, 0x0102, false, .booking (.amend ⟨Text.of "EXA00101", none, .remove, none, none, none, none, none,
          none⟩)⟩) :=
  ⟨fun _ _ => reset_ready _ _, by decide⟩

/-- After SLK the index engine searches from lane 1, and with lane 12 alone waiting it grants lane 12 (R9); the
grading engine takes lane 12's scan (R124). -/
def engineState : State :=
  { State.reset with
    engine := ⟨0, none, Vector.ofFn fun n => if n.val = 11 then some ⟨⟨63, 15⟩, []⟩ else none⟩
    grader := { State.reset.grader with
      lanes := State.reset.grader.lanes.set 11 ⟨some ⟨⟨63, 15⟩, .two, 3, ⟨⟨0, 0, 0, 0⟩, ⟨0, 0, 0, 0⟩, ⟨0, 0, 0, 0⟩,
        ⟨0, 0, 0, 0⟩, ⟨0, 0, 0, 0⟩⟩⟩, 0, 0⟩ } }

theorem test_witness_engines :
    engineState.prst = false ∧ engineState.engine.inFlight = none ∧ engineState.engine.waiting[(11 : Lane)]
        = some ⟨⟨63, 15⟩, []⟩
    ∧ engineState.engine.lastGranted + 1 + 11 = (12 : Fin 13)
    ∧ (after .indexEngineGrant engineState).engine.inFlight = some (.lane 11 ⟨⟨63, 15⟩, []⟩)
    ∧ (after .indexEngineGrant { engineState with link := (flying .reset (.scan none 0)).link }).engine.lastGranted = 12
    ∧ (after .indexEngineGrant { State.reset with link := (flying .reset (.scan none 0)).link }).engine.inFlight
        = some .host
    ∧ (flying .reset (.scan none 0)).engine.inFlight ≠ none
    ∧ engineState.grader.inFlight = none ∧ engineState.grader.lastServed + 1 + 11 = (11 : Lane)
    ∧ (after .gradingEngineTake engineState).grader.lastServed = 11 := by decide

theorem completing (s : State) (req : BookReq) (h1 : s.prst = false) (h2 : ∀ n : Lane, s.engine.waiting[n] = none) :
    (flying s req).Completing ⟨0x10#8, 0x0102#16, false, .booking req⟩ req := ⟨h1, rfl, rfl, rfl, h2⟩

/-- What the completion of a booking request answers. -/
def completes (s : State) (req : BookReq) : Option Result := result .indexOperationComplete (flying s req)

/-- BOOK_CREATE: each refusal in order, and a book of 8191 and of 8192 live records (R12). -/
theorem test_witness_create :
    (∀ req, (flying (timed 500) req).Completing ⟨0x10#8, 0x0102#16, false, .booking req⟩ req)
    ∧ (completes (timed 500) (.create { createReq 480 with teu := 3 }) = some .badParam
      ∧ completes (timed 500) (.create { createReq 480 with container := some (Text.of "ZKRU4219077") })
        = some .badCheckDigit
      ∧ completes (withBook (booking .booked (some 480) none)) (.create (createReq 480)) = some .exists_
      ∧ completes (timed 500) (.create (createReq 481)) = some .noSuchWindow
      ∧ completes { timed 500 with ring := { ring2 with windows := [⟨480, .all 1, .all 1, .all 0⟩] } }
        (.create (createReq 480)) = some .windowFull
      ∧ completes { timed 500 with book := ⟨[], [], 8192, 0⟩ } (.create (createReq 480)) = some .tableFull
      ∧ completes { timed 500 with book := ⟨[], [], 8191, 0⟩ } (.create (createReq 480)) = some .ok
      ∧ tableWf (timed 500).book.records
      ∧ answer .indexOperationComplete (flying (timed 500) (.create (createReq 480))) = some (.ok, [0, 0])) :=
  ⟨fun req => completing _ req rfl (by decide), by decide⟩

theorem cluster_entries : ∀ p ∈ cluster.index, p.2 ≠ 5 ∧ ∃ q ∈ cluster.records, q.1 = p.2
    ∧ tableFind p.2 cluster.records = some q.2 ∧ q.2.ref ≠ Text.of "EXA00101" ∧ cluster.lookup q.2.ref = some p.2 := by
  decide

/-- The book of R8's example takes a sixth record in slot 5 (R7). -/
theorem test_witness_lookup :
    tableFind 5 cluster.records = none ∧ (∃ n < 16384, tableFind n cluster.index = none)
    ∧ ∀ n k, tableFind n cluster.index = some k →
      k ≠ 5 ∧ ∃ q, tableFind k cluster.records = some q ∧ q.ref ≠ (booking .booked (some 480) none).ref
        ∧ cluster.lookup q.ref = some k := by
  refine ⟨by decide, ⟨3, by decide, by decide⟩, fun n k h => ?_⟩
  obtain ⟨h1, q, -, -, h2, h3, h4⟩ := cluster_entries _ (mem_of_tableFind h)
  exact ⟨h1, q.2, h2, h3, h4⟩

/-- BOOK_AMEND's request for EXA00101, with a window. -/
def amendReq (window : Option Nat) : AmendReq :=
  ⟨Text.of "EXA00101", window, .unchanged, none, none, none, none, none, none⟩

/-- BOOK_AMEND: the refusals by reference, state, form, check digit and window, and a window kept and moved (R13). -/
theorem test_witness_amend :
    (∀ st req, (flying (withBook (booking st (some 480) none)) req).Completing ⟨0x10#8, 0x0102#16, false, .booking req⟩ req)
    ∧ (let s := withBook (booking .booked (some 480) none);
      s.book.lookup (Text.of "EXA00101") = some 8191
      ∧ tableFind 8191 s.book.records = some (booking .booked (some 480) none)
      ∧ completes s (.amend { amendReq none with ref := Text.of "EXA0010" }) = some .badParam
      ∧ completes s (.amend { amendReq none with ref := Text.of "EXA00102" }) = some .notFound
      ∧ completes (withBook (booking .inLane (some 480) none)) (.amend (amendReq none)) = some .inUse
      ∧ completes (withBook (booking .admitted (some 480) none)) (.amend (amendReq none)) = some .wrongState
      ∧ completes s (.amend { amendReq none with block := some 1 }) = some .badParam
      ∧ completes s (.amend { amendReq none with container := some (Text.of "ZKRU4219077") }) = some .badCheckDigit
      ∧ completes s (.amend (amendReq (some 481))) = some .noSuchWindow
      ∧ completes s (.amend (amendReq (some 480))) = some .ok
      ∧ (after .indexOperationComplete (flying s (.amend (amendReq (some 510))))).ring.windows.map (·.booked.exportFull)
        = [0, 1]
      ∧ completes { s with ring := { ring2 with windows := [⟨480, .all 1, .all 1, .all 0⟩,
          ⟨510, .all 0, .all 0, .all 0⟩] } }
        (.amend (amendReq (some 510))) = some .windowFull) :=
  ⟨fun st req => completing _ req rfl (by cases st <;> decide), by decide⟩

/-- BOOK_CANCEL and BOOK_RETIRE in each state of the booking (R14, R15). -/
theorem test_witness_cancel :
    (∀ st w h req, (flying (withBook (booking st w h)) req).Completing ⟨0x10#8, 0x0102#16, false, .booking req⟩ req)
    ∧ (let ref := Text.of "EXA00101";
      completes (withBook (booking .booked (some 480) none)) (.cancel ref) = some .ok
      ∧ completes (withBook (booking .booked (some 480) none)) (.retire ref) = some .wrongState
      ∧ completes (withBook (booking .inLane (some 480) none)) (.cancel ref) = some .inUse
      ∧ completes (withBook (booking .admitted none none)) (.cancel ref) = some .wrongState
      ∧ completes (withBook (booking .admitted (some 480) none)) (.retire ref) = some .windowOpen
      ∧ completes (withBook (booking .admitted none (some ⟨0, 0⟩))) (.retire ref) = some .inUse
      ∧ completes (withBook (booking .admitted none none)) (.retire ref) = some .ok
      ∧ (after .indexOperationComplete (flying (withBook (booking .noShow none none)) (.cancel ref))).book = ⟨[], [], 0, 0⟩
      ∧ completes .reset (.cancel ref) = some .notFound ∧ completes .reset (.retire []) = some .badParam) :=
  ⟨fun st w h req => completing _ req rfl (by cases st <;> exact fun _ => by simp [withBook, State.reset]), by decide⟩

/-- A query, and scans from slots 8191 and 8192, matched and not (R16, R17). -/
theorem test_witness_scan :
    (∀ req, (flying (withBook (booking .booked (some 480) none)) req).Completing ⟨0x10#8, 0x0102#16, false, .booking req⟩ req)
    ∧ (let s := withBook (booking .booked (some 480) none);
      tableWf s.book.records
      ∧ completes s (.query (Text.of "EXA00101")) = some .ok ∧ completes s (.scan none 8192) = some .badParam
      ∧ completes s (.scan (some .noShow) 0) = some .notFound
      ∧ (answer .indexOperationComplete (flying s (.scan (some .booked) 8191))).map
          (fun p => (p.2.take 2, p.2.reverse.take 2)) = some ([0x1F, 0xFF], [0x00, 0x20])) :=
  ⟨fun req => completing _ req rfl (by decide), by decide⟩

/-- A leg of EXA00101. -/
def legOf (d : Disposition) (dest : Option Dest) : Leg :=
  { Leg.formed 8191 (booking .booked (some 480) none) .onTime none with disposition := d, dest := dest }

/-- The admission, the revert and the release, on bookings of the visit named and of another (R19 to R21). -/
theorem test_witness_record_updates :
    (legOf .pending none).slot = some 8191 ∧ (booking .inLane (some 480) (some ⟨0, 0⟩)).ref = (legOf .pending none).ref
    ∧ (let s := withBook (booking .inLane (some 480) (some ⟨0, 0⟩));
      tableFind 8191 s.book.records = some (booking .inLane (some 480) (some ⟨0, 0⟩))
      ∧ (s.admitBooking (legOf .pending none) ⟨0, 0⟩).ring.windows.map (·.arrived.exportFull) = [1, 0]
      ∧ (s.admitBooking (legOf .pending none) ⟨0, 1⟩).book = s.book
      ∧ tableFind 8191 (s.revertBooking (legOf .pending none) ⟨0, 0⟩).book.records
          = some (booking .booked (some 480) none))
    ∧ ((withBook (booking .noShow none none)).admitBooking (legOf .pending none) ⟨0, 0⟩).book.noShow = 0
    ∧ ((withBook (booking .inLane none (some ⟨0, 0⟩))).revertBooking (legOf .pending none) ⟨0, 0⟩).book.noShow = 1 := by
  decide

/-- The slot of the leg is free, or holds another reference (R18). -/
theorem test_witness_record_not_held :
    (∀ k r, (legOf .pending none).slot = some k → tableFind k (timed 500).book.records = some r →
      r.ref ≠ (legOf .pending none).ref)
    ∧ (let s := withBook { booking .inLane (some 480) (some ⟨0, 0⟩) with ref := Text.of "EXA00102" };
      (∀ k r, (legOf .pending none).slot = some k → tableFind k s.book.records = some r →
          r.ref ≠ (legOf .pending none).ref)
      ∧ (s.revertBooking (legOf .pending none) ⟨0, 0⟩).book = s.book) := by
  refine ⟨fun k r h g => ?_, fun k r h g => ?_, by decide⟩
  · cases g
  · cases h
    have : tableFind 8191 (withBook { booking .inLane (some 480) (some ⟨0, 0⟩) with ref := Text.of "EXA00102" }).book.records
      = some { booking .inLane (some 480) (some ⟨0, 0⟩) with ref := Text.of "EXA00102" } := by decide
    rw [this] at g; cases g; decide

/-! ### Witnesses: lanes -/

/-- The lines of a lane in AUTO and IDLE, with an ENTERING and a RELEASING visit, in CLOSED, and in MANUAL with point 6
driven; point numbers 6 and 7 and latch values 1 and 2 (R45 to R48, R66). -/
theorem test_witness_points :
    (∀ code fields, (ask .reset code fields).Ready code (frame code fields) [])
    ∧ (seat 11 63 (visitAt .releasing) .reset).Resident 11 63 (visitAt .releasing)
    ∧ (let auto : State := { State.reset with lanes := State.reset.lanes.set 11 { LaneUnit.reset with mode := .auto } };
      (auto.lane 11).mode = .auto ∧ (auto.lineLevel 11 3, auto.lineLevel 11 4) = (true, false)
      ∧ (seat 11 63 (visitAt .entering) .reset).lineLevel 11 3 = true
      ∧ ((seat 11 63 (visitAt .releasing) .reset).lane 11).mode = .auto
      ∧ (seat 11 63 (visitAt .releasing) .reset).lineLevel 11 4 = true
      ∧ (State.reset.lane 11).mode = .manual
      ∧ answer .pointWrite (ask .reset 0x24#8 [12, 6, 1, 1, 1, 1]) = some (.ok, [1, 1, 1])
      ∧ answer .pointWrite (ask .reset 0x24#8 [12, 0, 1, 1, 1, 1]) = some (.ok, [0, 1, 0])
      ∧ result .pointWrite (ask .reset 0x24#8 [12, 7, 0, 0]) = some .badParam
      ∧ result .pointWrite (ask .reset 0x24#8 [12, 6, 0, 1, 2]) = some .badParam
      ∧ result .pointRead (ask .reset 0x25#8 [12]) = some .ok) :=
  ⟨fun _ _ => reset_ready _ _, ⟨rfl, rfl⟩, by decide⟩

theorem test_witness_points_closed :
    (let s : State := { State.reset with lanes := State.reset.lanes.set 0 { LaneUnit.reset with mode := .closed } };
      (s.lane 0).mode = .closed ∧ s.lineLevel 0 5 = true) := by decide

/-- The lamps of a lane in AUTO, LAMP_STOP and LAMP_GO: IDLE, BLOCKED, a visit ENTERING before and after its entry loop
cleared, HELD and RELEASING (R66). -/
theorem test_lamps :
    (let lamps (s : State) : Bool × Bool := (s.lineLevel 11 5, s.lineLevel 11 6);
      let auto : State := { State.reset with lanes := State.reset.lanes.set 11 { LaneUnit.reset with mode := .auto } };
      let entering := seat 11 63 (visitAt .entering) .reset;
      lamps auto = (false, true) ∧ lamps { auto with freeCount := 0 } = (true, false)
      ∧ lamps entering = (false, true)
      ∧ lamps { entering with lanes := entering.lanes.set 11 { entering.lane 11 with entryCleared := true } } = (true, false)
      ∧ lamps (seat 11 63 (visitAt .held) .reset) = (true, false)
      ∧ lamps (seat 11 63 (visitAt .releasing) .reset) = (false, true)) := by decide

/-- Masks 0Fh and 10h, and lanes 0 and 13 (R57). -/
theorem test_witness_flags :
    (∀ fields, (ask .reset 0x26#8 fields).Ready 0x26#8 (frame 0x26#8 fields) [])
    ∧ (let s : State := { State.reset with
          lanes := State.reset.lanes.set 11 { LaneUnit.reset with flags := ⟨true, true, true, true⟩ } };
      answer .laneFlagsClear (ask s 0x26#8 [12, 0x0F]) = some (.ok, [0, 0, 0, 0])
      ∧ answer .laneFlagsClear (ask s 0x26#8 [12, 0x08]) = some (.ok, [1, 1, 1, 0])
      ∧ result .laneFlagsClear (ask s 0x26#8 [12, 0x10]) = some .badParam
      ∧ result .laneFlagsClear (ask s 0x26#8 [0, 0x00]) = some .badParam
      ∧ result .laneFlagsClear (ask s 0x26#8 [13, 0x00]) = some .badParam) :=
  ⟨fun _ => reset_ready _ _, by decide⟩

/-- A serial frame as received with no fault. -/
def received (kind : Byte) (body : List Byte) : List RxChar :=
  (serialBytes ⟨kind, body⟩).map fun b => (⟨b, false⟩ : RxChar)

/-- A PLATE frame: confidence 66, "AB12CD". -/
def plateBody : List Byte := [66, 6, 0x41, 0x42, 0x31, 0x32, 0x43, 0x44]

/-- A frame badly delimited, one with a wrong check, one with no contents of any kind, and a good one at a buffer of 1
and of 2 frames, with a visit in ENTERING, in CHECKING and in HELD (R51, R55, R56). -/
theorem test_witness_frame_arrival :
    (seat 0 63 (visitAt .entering) .reset).Resident 0 63 (visitAt .entering)
    ∧ (serialFrame [⟨0x7E, true⟩] = .error .delimiting
      ∧ serialFrame [⟨0x7E, false⟩, ⟨1, false⟩, ⟨0, false⟩, ⟨0, false⟩, ⟨0, false⟩, ⟨0x7C, false⟩] = .error .check
      ∧ serialFrame (received 0x01 plateBody) = .ok ⟨0x01, plateBody⟩
      ∧ laneContents ⟨0x01, plateBody⟩ = some (.plate (Text.of "AB12CD") 66)
      ∧ serialFrame (received 0x06 []) = .ok ⟨0x06, []⟩ ∧ laneContents ⟨0x06, []⟩ = none)
    ∧ (let s := seat 0 63 (visitAt .entering) .reset;
      let full : State := { s with lanes := s.lanes.set 0 { s.lane 0 with buffer := [.card [], .card []] } };
      s.prst = false
      ∧ ((after (.laneFrameArrival 0 (received 0x01 plateBody)) s).lane 0).buffer = [.plate (Text.of "AB12CD") 66]
      ∧ ((after (.laneFrameArrival 0 (received 0x01 plateBody)) full).lane 0).flags.overrun = true
      ∧ ((after (.laneFrameArrival 0 (received 0x01 plateBody)) full).visit 63).map (·.linkLoss) = some true
      ∧ ((after (.laneFrameArrival 0 (received 0x06 [])) s).lane 0).flags.frameError = true
      ∧ (after (.frameCutShort 0) s).link.changes = [.lane 0]) :=
  ⟨⟨rfl, rfl⟩, by decide, by decide⟩

/-- A lane with a visit and frames in its buffer. -/
def buffered (x : Visit) (fs : List LaneFrame) : State :=
  { seat 0 63 x .reset with
    lanes := State.reset.lanes.set 0 { LaneUnit.reset with mode := .auto, resident := some 63, buffer := fs } }

/-- A face record with coverage 130. -/
def face130 : Face := ⟨1023, 0, 0, 130⟩

/-- Each kind of frame at its owner: plates of 2 and 1 characters, a seal of 4 and of 3, a scan for an OPEN and a
CLOSED grading, a card for a card field of NONE and DONE, and a stray (R52 to R54, R90, R95, R96, R108, R122). -/
theorem test_witness_frame_take :
    (buffered (visitAt .checking) []).Resident 0 63 (visitAt .checking)
    ∧ (let x := visitAt .checking;
      (buffered x []).prst = false ∧ (buffered x []).engine.waiting[(0 : Lane)] = none
          ∧ (buffered x []).engine.inFlight = none
      ∧ ((after (.laneFrameTake 0) (buffered x [.plate (Text.of "AB") 255])).visit 63).map (·.plates)
        = some [⟨Text.of "AB", 100⟩]
      ∧ ((after (.laneFrameTake 0) (buffered x [.plate (Text.of "A") 100])).visit 63).map (·.plates) = some []
      ∧ ((after (.laneFrameTake 0) (buffered x [.container .two (Text.of "ZKRU4219077") 91])).visit 63).map (·.containers.two)
        = some [⟨Text.of "ZKRU4219077", 91⟩]
      ∧ ((after (.laneFrameTake 0) (buffered x [.sealRead .one (Text.of "KT55") 95])).visit 63).map (·.seals.one.entries)
        = some [⟨Text.of "KT55", 95⟩]
      ∧ ((after (.laneFrameTake 0) (buffered x [.sealRead .one (Text.of "KT5") 95])).visit 63).map (·.seals.one.entries) = some [])
    ∧ (let scan : LaneFrame := .scan .two 3 ⟨face130, face130, face130, face130, face130⟩;
      ((after (.laneFrameTake 0) (buffered (visitAt .checking) [scan])).grader.lanes[(0 : Lane)].pending.map
          fun c => (c.handle, c.faces.roof.c)) = some (⟨63, 0⟩, 100)
      ∧ (after (.laneFrameTake 0) (buffered { visitAt .checking with grading := .closed } [scan])).grader.lanes[(0 : Lane)].late = 1)
    ∧ (let card : LaneFrame := .card [Text.of "EXA00411", Text.of "RTN0052"];
      (after (.laneFrameTake 0) (buffered (visitAt .checking) [card])).engine.waiting[(0 : Lane)]
        = some ⟨⟨63, 0⟩, [Text.of "EXA00411"]⟩
      ∧ ((after (.laneFrameTake 0) (buffered (visitAt .checking) [card])).visit 63).map (fun x => (x.card, x.unreadable))
        = some (.pending, true)
      ∧ ((after (.laneFrameTake 0) (buffered { visitAt .checking with card := .done } [card])).lane 0).flags.stray = true
      ∧ ((after (.laneFrameTake 0) (buffered (visitAt .held) [card])).lane 0).flags.stray = true
      ∧ ((after (.laneFrameTake 0) { buffered (visitAt .checking) [card] with
          engine := ⟨1, some (.lane 0 ⟨⟨63, 0⟩, []⟩), Vector.replicate 12 none⟩ }).lane 0).buffer = [card]) :=
  ⟨⟨rfl, rfl⟩, by decide, by decide, by decide⟩

/-- Two full sets of capacity 2, at and above the lowest confidence; floors at and above a confidence (R95, R97 to
R99). -/
theorem test_witness_reads :
    (let rs : List ReadEntry := [⟨Text.of "AB", 100⟩, ⟨Text.of "CD", 0⟩];
      (0 ≤ 100 ∧ ∀ e ∈ rs, e.conf ≤ 100) ∧ (∃ e ∈ rs, e.text = Text.of "CD") ∧ (∀ e ∈ rs, e.text ≠ Text.of "EF")
      ∧ rs.length < 3 ∧ 2 ≤ rs.length
      ∧ enterRead 2 (Text.of "CD") 100 rs = [⟨Text.of "AB", 100⟩, ⟨Text.of "CD", 100⟩]
      ∧ enterRead 3 (Text.of "EF") 0 rs = rs ++ [⟨Text.of "EF", 0⟩]
      ∧ enterRead 2 (Text.of "EF") 0 rs = rs ∧ enterRead 2 (Text.of "EF") 1 rs
          = [⟨Text.of "AB", 100⟩, ⟨Text.of "EF", 1⟩])
    ∧ resolvePos 91 [⟨Text.of "ZKRU4219077", 91⟩] = .checkFail ⟨Text.of "ZKRU4219077", 91⟩
    ∧ resolvePos 92 [⟨Text.of "ZKRU4219077", 91⟩] = .unread
    ∧ ((({ visitAt .checking with plates := [⟨Text.of "AB", 60⟩, ⟨Text.of "CD", 60⟩] } : Visit).resolvePlate
        ⟨[], [], 0, 0⟩ 60).plate) = some ⟨Text.of "AB", 60⟩ := by decide

/-- A seal read set of 5 and of 6 texts: a new text that joins it, a new text that overflows it, and a repeat in the
full set, higher and lower (R108 to R110). -/
theorem test_witness_seal_reads :
    (let five : SealSet := ⟨["SEAL1", "SEAL2", "SEAL3", "SEAL4", "SEAL5"].map fun t => ⟨Text.of t, 80⟩, false⟩;
      let six := five.enter (Text.of "SEAL6") 0;
      five.entries.length = 5 ∧ six.entries = five.entries ++ [⟨Text.of "SEAL6", 0⟩] ∧ six.overflow = false
      ∧ (∀ e ∈ six.entries, e.text ≠ Text.of "SEAL7") ∧ six.entries.length = 6
      ∧ six.enter (Text.of "SEAL7") 100 = { six with overflow := true }
      ∧ six.enter (Text.of "SEAL6") 100 = { six with entries := five.entries ++ [⟨Text.of "SEAL6", 100⟩] }
      ∧ six.enter (Text.of "SEAL1") 79 = six) := by decide

/-- LANE_MODE at an empty lane, at a HELD and at a CHECKING visit (R81). -/
theorem test_witness_lane_mode :
    (∀ fields, (ask .reset 0x20#8 fields).Ready 0x20#8 (frame 0x20#8 fields) [])
    ∧ (seat 11 63 (visitAt .held) .reset).Resident 11 63 (visitAt .held)
    ∧ ((State.reset.lane 11).resident = none ∧ (State.reset.lane 11).releasing = false
      ∧ ((after .laneMode (ask .reset 0x20#8 [12, 0])).lane 11).mode = .auto
      ∧ ((after .laneMode (ask .reset 0x20#8 [12, 2])).lane 11).mode = .closed
      ∧ ((after .laneMode (ask (seat 11 63 (visitAt .held) .reset) 0x20#8 [12, 1])).lane 11).mode = .manual
      ∧ result .laneMode (ask (seat 11 63 (visitAt .checking) .reset) 0x20#8 [12, 1]) = some .laneBusy
      ∧ ((after .laneMode (ask (seat 11 63 (visitAt .checking) .reset) 0x20#8 [12, 2])).lane 11).closing = true) :=
  ⟨fun _ => reset_ready _ _, ⟨rfl, rfl⟩, by decide⟩

/-- Limits 0 and 65535; floors 100 and 101; an entry, a weight, a floor and a K at the ends of their ranges and past
them, and the thresholds; the grader's clear choice (R70, R97, R114, R139 to R141). -/
theorem test_witness_settings :
    (∀ code fields, (ask .reset code fields).Ready code (frame code fields) [])
    ∧ (((after .laneSet (ask .reset 0x21#8 ([12, 1, 0, 0, 1, 0xFF, 0xFF] ++ List.replicate 6 0))).lane 11).limits
        = ⟨1, 65535, 600, 3000, 3000, 600, 20, 5⟩
      ∧ answer .checkSet (ask .reset 0x30#8 [1, 100, 1, 0]) = some (.ok, [100, 0])
      ∧ result .checkSet (ask .reset 0x30#8 [1, 101, 0]) = some .badParam
      ∧ result .checkSet (ask .reset 0x30#8 [0, 1, 101]) = some .badParam
      ∧ answer .sealSet (ask .reset 0x31#8 [1, 100, 1, 1]) = some (.ok, [100, 1])
      ∧ result .sealSet (ask .reset 0x31#8 [1, 101, 0]) = some .badParam)
    ∧ (let mix (q : Int) (w t1 floor k : Nat) : State :=
        ask .reset 0x34#8 (eOpt e2signed (some q) ++ List.replicate 8 0 ++ eOpt e1 (some w) ++ [0, 0]
          ++ eOpt e2 (some t1) ++ [0, 0] ++ eOpt e1 (some floor) ++ eOpt e1 (some k));
      result .mixSet (mix (-8192) 15 1 100 15) = some .ok ∧ result .mixSet (mix 8191 0 255 0 1) = some .ok
      ∧ result .mixSet (mix (-8193) 15 1 100 15) = some .badParam ∧ result .mixSet (mix 8192 15 1 100 15)
          = some .badParam
      ∧ result .mixSet (mix 0 16 1 100 15) = some .badParam ∧ result .mixSet (mix 0 15 0 100 15) = some .badParam
      ∧ result .mixSet (mix 0 15 256 100 15) = some .badParam ∧ result .mixSet (mix 0 15 1 101 15) = some .badParam
      ∧ result .mixSet (mix 0 15 1 100 16) = some .badParam ∧ result .mixSet (mix 0 15 1 100 0) = some .badParam)
    ∧ (result .mixSet (ask (seat 0 63 (visitAt .checking) .reset) 0x34#8 (eOpt e2signed (some 1)
        ++ List.replicate 16 0))
        = some .wrongState
      ∧ result .mixSet (ask (seat 0 63 (visitAt .checking) .reset) 0x34#8 (List.replicate 17 0)) = some .ok
      ∧ result .graderStatus (ask .reset 0x35#8 [0]) = some .ok ∧ result .graderStatus (ask .reset 0x35#8 [1])
          = some .ok) :=
  ⟨fun _ _ => reset_ready _ _, by decide, by decide, by decide⟩

/-- LANE_ABORT with no visit, and with one in YARD_WAIT that waits in the queue (R83). -/
def waitingState : State :=
  { seat 11 63 (visitAt .yardWait) .reset with yard := { Yard.reset with queue := [⟨63, 0⟩] } }

theorem test_witness_lane_abort :
    (ask .reset 0x22#8 [12]).Ready 0x22#8 (frame 0x22#8 [12]) []
    ∧ (ask waitingState 0x22#8 [12]).Ready 0x22#8 (frame 0x22#8 [12]) []
        ∧ waitingState.Resident 11 63 (visitAt .yardWait)
    ∧ ((State.reset.lane 11).resident = none ∧ result .laneAbort (ask .reset 0x22#8 [12]) = some .wrongState
      ∧ (∀ h ∈ waitingState.yard.queue, h = waitingState.handle 63)
      ∧ (after .laneAbort (ask waitingState 0x22#8 [12])).laneState 11 = .releasing
      ∧ (after .laneAbort (ask waitingState 0x22#8 [12])).visit 63 = some ((visitAt .yardWait).rejected .aborted)
      ∧ (after .laneAbort (ask waitingState 0x22#8 [12])).yard.queue = []) :=
  ⟨reset_ready _ _, ask_ready _ _ rfl rfl rfl, ⟨rfl, rfl⟩, by decide⟩

/-- LANE_RESET of an empty lane, and of a closing lane with a visit (R82, R85). -/
def closingState : State :=
  { waitingState with lanes := waitingState.lanes.set 11 { waitingState.lane 11 with closing := true } }

theorem test_witness_lane_reset :
    (ask .reset 0x23#8 [12]).Ready 0x23#8 (frame 0x23#8 [12]) []
    ∧ (ask closingState 0x23#8 [12]).Ready 0x23#8 (frame 0x23#8 [12]) []
        ∧ closingState.Resident 11 63 (visitAt .yardWait)
    ∧ ((closingState.visit 63).isSome = true ∧ State.reset.yard.queue = []
      ∧ (after .laneReset (ask closingState 0x23#8 [12])).link.changes = [.visit 63, .lane 11]
      ∧ (after .laneReset (ask closingState 0x23#8 [12])).laneState 11 = .closed
      ∧ result .laneReset (ask .reset 0x23#8 [12]) = some .ok) :=
  ⟨reset_ready _ _, ask_ready _ _ rfl rfl rfl, ⟨rfl, rfl⟩, by decide⟩

/-- A visit with one leg to a place: its abort and its close give the place back (R178). -/
def placedState : State :=
  seat 11 63 { visitAt .directing with lane := 11, legs := [legOf .yard (some (.block 47))] } { State.reset with
    yard := { Yard.reset with blocks := Yard.reset.blocks.set 47 ⟨.isOpen, some (Text.of "A47"), some .both, 2, 0, 2, some []⟩ } }

theorem test_witness_give_back :
    (ask placedState 0x22#8 [12]).Ready 0x22#8 (frame 0x22#8 [12]) []
    ∧ (((placedState.visit 63).any fun x => x.legs.any Leg.holdsPlace) = true
      ∧ ((after .laneAbort (ask placedState 0x22#8 [12])).yard.blocks[(47 : Fin 48)]).reserved = 0
      ∧ ((after .laneReset (ask placedState 0x23#8 [12])).yard.blocks[(47 : Fin 48)]).reserved = 0
      ∧ ((after .gateRestart (ask placedState 0x05#8 [])).yard.blocks[(47 : Fin 48)]).reserved = 0) :=
  ⟨ask_ready _ _ rfl rfl rfl, by decide⟩

/-- A lane in AUTO with no visit. -/
def autoLane : State := { State.reset with lanes := State.reset.lanes.set 11 { LaneUnit.reset with mode := .auto } }

/-- The entry loop at a free lane with 64 and with 0 free slots and at a lane in MANUAL; the stop and the exit loop of
a visit in ENTERING and in RELEASING, with the next truck on the entry loop (R71 to R74, R79). -/
theorem test_witness_loops :
    (seat 11 63 (visitAt .entering) .reset).Resident 11 63 (visitAt .entering)
    ∧ (autoLane.prst = false ∧ (autoLane.lane 11).resident = none ∧ autoLane.visit 0 = none ∧ autoLane.freeCount ≠ 0
      ∧ ((after (.loopEvent 11 .entry true) autoLane).lane 11).resident = some 0
      ∧ (after (.loopEvent 11 .entry true) { autoLane with freeCount := 0 }).openWait = [11]
      ∧ ((after (.loopEvent 11 .entry true) .reset).lane 11).resident = none
      ∧ (after (.loopEvent 11 .entry false) autoLane).freeCount = 64)
    ∧ (let s := seat 11 63 (visitAt .entering) .reset;
      ((after (.loopEvent 11 .stop true) s).visit 63).map (·.state) = some .checking
      ∧ ((after (.loopEvent 11 .entry false) { s with loops := s.loops.set 11 ⟨true, false, false⟩ }).lane 11).entryCleared
        = true)
    ∧ (let t := seat 11 63 { visitAt .releasing with outcome := some .turnAway } .reset;
      let s : State := { t with
        loops := t.loops.set 11 ⟨true, false, true⟩, lanes := t.lanes.set 11 { t.lane 11 with exitSeen := true } };
      ((after (.loopEvent 11 .exit false) s).visit 63).map (fun x => (x.state, x.rejectReason))
        = some (.rejected, some .turnAway)
      ∧ ((after (.loopEvent 11 .exit false) s).lane 11).resident = some 0)
    ∧ (let s : State := { autoLane with
        loops := autoLane.loops.set 11 ⟨false, false, true⟩
        lanes := autoLane.lanes.set 11 { autoLane.lane 11 with releasing := true, exitSeen := true, closing := true } };
      (after (.loopEvent 11 .exit false) s).laneState 11 = .closed) :=
  ⟨⟨rfl, rfl⟩, by decide, by decide, by decide, by decide⟩

/-! ### Witnesses: identification and the end of CHECKING -/

/-- Nothing found; each other state; window 480 at the minutes 449, 450, 524 and 525, and a ring whose next window is
full at 525 (R33 to R36, R91, R92). -/
theorem test_witness_leg :
    (Text.of "EXA00101").length = 8 ∧ State.reset.book.lookup (Text.of "EXA00101") = none
    ∧ (∀ st ∈ [BookingState.booked, .inLane, .admitted, .noShow],
      let s := withBook (booking st (some 480) none);
      s.book.lookup (Text.of "EXA00101") = some 8191
      ∧ tableFind 8191 s.book.records = some (booking st (some 480) none)
      ∧ (booking st (some 480) none).ref = Text.of "EXA00101")
    ∧ ((withBook (booking .inLane (some 480) none)).formLeg ⟨63, 15⟩ 500 (Text.of "EXA00101")).2.exception
        = some .duplicateUse
    ∧ (let s := withBook (booking .booked (some 480) none);
      let full : State := { s with ring := { ring2 with windows := [⟨480, .all 1, .all 1, .all 0⟩,
          ⟨510, .all 0, .all 0, .all 0⟩] } };
      let w (s : State) (a : Nat) : WindowOutcome := (s.formLeg ⟨63, 15⟩ a (Text.of "EXA00101")).2.window;
      (w s 449, w s 450, w s 524, w s 525, w full 525) = (.early, .onTime, .onTime, .transferred, .late)
      ∧ (s.formLeg ⟨63, 15⟩ 525 (Text.of "EXA00101")).1.ring.windows.map (·.booked.exportFull) = [0, 1]) := by decide

/-- An identification in flight for lane 12. -/
def identifying (h : Handle) (refs : List Text) (s : State) : State :=
  { s with engine := ⟨12, some (.lane 11 ⟨h, refs⟩), Vector.replicate 12 none⟩ }

/-- The visit gone EN_ROUTE, a stale handle, and a visit in ENTERING with two references, the second unknown (R11,
R91, R93). -/
theorem test_witness_identification :
    (identifying ⟨63, 15⟩ [] .reset).prst = false ∧ (identifying ⟨63, 15⟩ [] .reset).named ⟨63, 15⟩ = none
    ∧ (identifying ⟨63, 0⟩ [] (seat 11 63 (visitAt .enRoute) .reset)).named ⟨63, 0⟩ = some (visitAt .enRoute)
    ∧ (∀ n : Lane, (identifying ⟨63, 15⟩ [] .reset).engine.waiting[n] = none)
    ∧ (let s := identifying ⟨63, 0⟩ [Text.of "EXA00101", Text.of "EXA00102"]
          (seat 11 63 (visitAt .entering) (withBook (booking .booked (some 480) none)));
      s.named ⟨63, 0⟩ = some (visitAt .entering) ∧ s.link.exec = none ∧ s.prst = false
      ∧ ((after .identificationComplete s).visit 63).map (fun x => (x.card, x.legs.map (·.exception), x.dropLegs))
        = some (.done, [none, some .notFound], some 1)
      ∧ (after .identificationComplete s).book.records.map (fun p => (p.1, p.2.state)) = [(8191, .inLane)]) := by decide

/-- A scan of lane 12's visit, for position 2. -/
def scanOf (h : Handle) : Scan := ⟨h, .two, 3,
    ⟨⟨0, 0, 0, 100⟩, ⟨0, 0, 0, 100⟩, ⟨0, 0, 0, 100⟩, ⟨0, 0, 0, 100⟩, ⟨0, 0, 0, 100⟩⟩⟩

/-- A grading engine with that scan in flight. -/
def grading (h : Handle) (s : State) : State := { s with grader := { s.grader with inFlight := some (11, scanOf h) } }

/-- A settle expiry with the grading OPEN, no scan in flight and one, and with it CLOSED; a card expiry that ends
CHECKING, and one before the settle limit (R75 to R77, R135). -/
theorem test_witness_settle :
    (let s := expired 11 .settle (seat 11 63 (visitAt .checking) .reset);
      s.prst = false ∧ s.Resident 11 63 (visitAt .checking) ∧ (s.lane 11).dwell.limit = .settle
          ∧ 0 < (s.lane 11).dwell.due)
    ∧ (let s := expired 11 .settle (seat 11 63 (visitAt .checking) .reset);
      s.grader.inFlight = none
      ∧ ((after (.settleExpiry 11) s).visit 63).map (fun x => (x.settleExpired, x.grading)) = some (true, .closed)
      ∧ ((after (.settleExpiry 11) (grading ⟨63, 0⟩ s)).visit 63).map (·.grading) = some .closing
      ∧ ((after (.settleExpiry 11) s).lane 11).dwell = ⟨.oneShot, 600, .card, 0⟩)
    ∧ (let x : Visit := { visitAt .checking with settleExpired := true, grading := .closed };
      let s := expired 11 .card (seat 11 63 x .reset);
      (s.lane 11).dwell.limit = .card ∧ (s.lane 11).resident = some 63 ∧ s.visit 63 = some x
      ∧ ((after (.cardLimitExpiry 11) s).visit 63).map (fun y => (y.state, y.reasons.noCard, y.reasons.plateUnread))
        = some (.held, true, true))
    ∧ (let s := expired 11 .card (seat 11 63 (visitAt .checking) .reset);
      ((after (.cardLimitExpiry 11) s).visit 63).map (fun y => (y.state, y.reasons.noCard)) = some (.checking, true)) :=
  ⟨⟨rfl, ⟨rfl, rfl⟩, rfl, by decide⟩, by decide, by decide, by decide⟩

/-- A visit all of whose findings pass. -/
def cleanVisit : Visit :=
  { visitAt .checking with
    card := .done, settleExpired := true, grading := .closed
    legs := [legOf .pending none]
    plates := [⟨Text.of "AB", 60⟩]
    containers := ⟨[⟨Text.of "ZKRU4219071", 95⟩], []⟩
    stability := ⟨{ Stability.opened with
      scans := 3, result := some ⟨.clean, ⟨.clean, .clean, .clean, .clean, .clean⟩, .settled, 3⟩ }, .opened⟩ }

/-- Its gate: its booking in the lane, and stack group 3. -/
def cleanState (group : List (Fin 48)) (mode : SendMode) : State :=
  let s := seat 11 63 cleanVisit (withBook (booking .inLane (some 480) (some ⟨63, 0⟩)));
  { s with
    yard := { s.yard with
      blocks := s.yard.blocks.set 0 ⟨.isOpen, some (Text.of "A01"), some .both, 4000, 0, 0, some []⟩
      groups := s.yard.groups.set 3 group }
    signs := s.signs.set 11 { s.sign 11 with mode := mode } }

/-- A clean visit with no block in its group, with one, and with the sign OFF; a visit that is not clean (R76, R147 to
R150). -/
theorem test_witness_end_of_checking :
    (cleanState [] .once).Resident 11 63 cleanVisit
    ∧ (seat 11 63 (visitAt .checking) .reset).Resident 11 63 (visitAt .checking)
    ∧ (let s := cleanState [] .once;
      (cleanVisit.judge s.book s.check).isClean = true ∧ ((visitAt .checking).judge s.book s.check).isClean = false
      ∧ ((s.endOfChecking 11 63).visit 63).map (·.state) = some .yardWait
      ∧ (((cleanState [0] .once).endOfChecking 11 63).visit 63).map (fun x => (x.state, x.legs.map (·.dest)))
        = some (.directing, [some (.block 0)])
      ∧ (((cleanState [0] .off).endOfChecking 11 63).visit 63).map (·.state) = some .releasing
      ∧ (((seat 11 63 (visitAt .checking) .reset).endOfChecking 11 63).visit 63).map (·.state) = some .held) :=
  ⟨⟨rfl, rfl⟩, ⟨rfl, rfl⟩, by decide⟩

/-- A visit on lane 12 whose identification completes: in CHECKING with and without its settle expired, in HELD with its
hold timeout due, and in ENTERING with a settled position, whose grading closes early (R75, R134, R157). -/
def identified (x : Visit) : State :=
  identifying ⟨63, 0⟩ [Text.of "EXA00101"] (seat 11 63 { x with lane := 11 } (withBook (booking .booked (some 480) none)))

theorem test_witness_identified :
    (let x : Visit := { visitAt .checking with lane := 11, settleExpired := true, grading := .closed };
      let y : Visit := { visitAt .checking with lane := 11, grading := .closed };
      let state (x : Visit) : Option (VisitState × CardField) :=
        ((after .identificationComplete (identified x)).visit 63).map fun z => (z.state, z.card);
      ((identified x).Resident 11 63 x ∧ (identified x).named ⟨63, 0⟩ = some x ∧ { x with card := .done }.CheckingEnds
        ∧ ¬ { y with card := .done }.CheckingEnds ∧ ¬ (identified x).ClosesEarly 11 63 x)
      ∧ state x = some (.held, .done) ∧ state y = some (.checking, .done))
    ∧ (let x : Visit := { visitAt .held with lane := 11, timeoutDue := true };
      let t := after .identificationComplete (identified x);
      (identified x).named ⟨63, 0⟩ = some x
      ∧ (t.visit 63).map (fun z => (z.state, z.outcome, z.legs.map (·.disposition)))
        = some (.releasing, some .holdTimeout, [.dropped])
      ∧ t.book.records.map (fun p => p.2.state) = [.booked])
    ∧ ((after .identificationComplete (identified { visitAt .entering with stability := cleanVisit.stability })).visit 63).map
        (fun z => (z.grading, z.dropLegs)) = some (.closed, some 1) :=
  ⟨⟨⟨⟨rfl, rfl⟩, by decide, ⟨rfl, .inl rfl, .inl rfl⟩, (fun h => by cases h.settled), (fun h => by cases h.isOpen)⟩,
    by decide, by decide⟩, by decide, by decide⟩

/-- The settle expiry of a visit whose card is DONE, with its grading CLOSED (R75). -/
theorem test_witness_settle_done :
    (let x : Visit := { visitAt .checking with card := .done, grading := .closed };
      let s := expired 11 .settle (seat 11 63 x .reset);
      s.Resident 11 63 x ∧ { x with settleExpired := true }.CheckingEnds
      ∧ ((after (.settleExpiry 11) s).visit 63).map (·.state) = some .held) :=
  ⟨⟨rfl, rfl⟩, ⟨rfl, .inl rfl, .inl rfl⟩, by decide⟩

/-- Two bookings in the lane: EXA00101 for ZKRU4219071, and EXA00102 for `second`, declared DAMAGED. -/
def twoBook (second : Text) : Book :=
  { ((⟨[], [], 0, 0⟩ : Book).insert 8191 (booking .inLane (some 480) (some ⟨63, 0⟩))).insert 0
      { booking .inLane (some 480) (some ⟨63, 0⟩) with
        ref := Text.of "EXA00102", container := some second, declared := some .damaged } with live := 2 }

/-- The clean visit with both legs, these container reads, and a MAJOR result at position 2. -/
def twoLegs (one two : Text) : Visit :=
  { cleanVisit with
    legs := [legOf .pending none, { legOf .pending none with ref := Text.of "EXA00102", slot := some 0 }]
    containers := ⟨[⟨one, 95⟩], [⟨two, 95⟩]⟩
    stability := ⟨cleanVisit.stability.one, { Stability.opened with
      scans := 255, result := some ⟨.major, ⟨.major, .clean, .clean, .clean, .clean⟩, .forced, 3⟩ }⟩ }

/-- R101, R102: both legs bind exactly, crossed; the first binds the first of two equal positions, and the second leg
falls back; two legs of one number bind in order; one leg binds exactly and the other falls back to CHECK_FAIL; two
unbound legs bind nothing. R137, R138: a MAJOR result passes where the booking declares damage. -/
theorem test_witness_judge :
    (let a := Text.of "ZKRU4219071";
      let b := Text.of "MTLU1234570";
      let judged (second one two : Text) : List (Option Pos × ContainerVerdict × DamageVerdict) :=
        ((twoLegs one two).judge (twoBook second) ⟨60, 50, 70, false⟩).legs.map fun l => (l.bound, l.container, l.damageVerdict);
      (∀ l ∈ (twoLegs a b).legs, l.bound = none)
      ∧ judged b b a = [(some .two, .matched, .flag), (some .one, .matched, .pass)]
      ∧ judged b a a = [(some .one, .matched, .pass), (some .two, .mismatch, .passDeclared)]
      ∧ judged a a a = [(some .one, .matched, .pass), (some .two, .matched, .passDeclared)]
      ∧ judged b a (Text.of "MTLU1234576") = [(some .one, .matched, .pass), (some .two, .checkFail, .passDeclared)]
      ∧ judged b (Text.of "ZKRU4219077") (Text.of "MTLU1234576")
          = [(none, .notRead, .flag), (none, .notRead, .flag)]) := by
  decide

/-- A leg formed as EMPTY_RETURN whose slot now holds an EXPORT_FULL booking is judged against the empty list (R106): a
strong seal read is unexpected, and without reads none is expected. -/
theorem test_witness_judge_kind_of_leg :
    (let sealed : Booking := { booking .inLane (some 480) (some ⟨63, 0⟩) with seals := [Text.of "SEAL1"] };
      let judged (kind : Kind) (reads : List ReadEntry) : List SealVerdict :=
        (({ cleanVisit with
            legs := cleanVisit.legs.map fun l => { l with kind := some kind }
            seals := ⟨⟨reads, false⟩, ⟨[], false⟩⟩ } : Visit).judge (bookOf sealed) ⟨60, 50, 70, false⟩).legs.map
          (·.sealVerdict);
      sealed.kind = .exportFull
      ∧ judged .emptyReturn [⟨Text.of "SEAL1", 100⟩] = [.unexpected] ∧ judged .emptyReturn [] = [.noneExpected]
      ∧ judged .exportFull [⟨Text.of "SEAL1", 100⟩] = [.intact] ∧ judged .exportFull [] = [.missing]) := by decide

/-- A leg's reason alone, and a leg's failing finding alone, keep a visit from being clean (R147, R148). -/
theorem test_witness_clean :
    (let y := cleanVisit.judge (cleanState [] .once).book ⟨60, 50, 70, false⟩;
      y.isClean = true ∧ ({ y with legs := [] } : Visit).isClean = false
      ∧ ({ y with reasons := { y.reasons with linkLoss := true } } : Visit).isClean = false
      ∧ ({ y with legs := y.legs.map fun l => { l with window := .late } } : Visit).isClean = false
      ∧ ({ y with legs := y.legs.map fun l => { l with sealVerdict := .notApplicable } } : Visit).isClean = false) := by decide

/-! ### Witnesses: damage grading -/

/-- Coverage and severities at and below the floor and the thresholds of the default parameters (R129). -/
theorem test_witness_grades :
    (let g (d b c : Nat) : Grade := Params.default.grade ⟨d, b, 0, c⟩;
      [g 0 0 59, g 0 0 60, g 126 0 60, g 128 0 60, g 510 0 60, g 512 0 60, g 0 639 60, g 0 640 60]
        = [.unseen, .clean, .clean, .minor, .minor, .major, .major, .critical])
    ∧ 59 < Params.default.floor ∧ Params.default.floor ≤ 60 ∧ Params.default.t1 ≤ Params.default.t2
    ∧ Params.default.t2 ≤ Params.default.t3
    ∧ classOf ⟨.unseen, .critical, .major, .clean, .clean⟩ = .critical := by decide

/-- K at its two ends (R132, R139). -/
theorem test_witness_scans :
    (let x (k j : Nat) : Stability :=
        (fun y : Stability => y.apply k 7 ⟨.clean, .clean, .minor, .unseen, .clean⟩)^[j] Stability.opened;
      (x 1 0).result = none ∧ (x 1 1).result
          = some ⟨.incomplete, ⟨.clean, .clean, .minor, .unseen, .clean⟩, .settled, 7⟩
      ∧ (x 15 14).result = none ∧ ((x 15 15).result.map (·.basis)) = some .settled ∧ (x 15 15).scans = 15) := by decide

/-- The force of a position with scans and no result, with none, and with a result (R136). -/
theorem test_witness_force :
    (let x : Stability := Stability.opened.apply 3 7 ⟨.clean, .unseen, .minor, .clean, .clean⟩;
      0 < x.scans ∧ x.result = none ∧ Stability.opened.scans = 0
      ∧ x.force.result = some ⟨.incomplete, ⟨.clean, .unseen, .minor, .clean, .clean⟩, .forced, 7⟩
      ∧ x.force.force = x.force) := by decide

/-- A stale handle, a visit HELD with its grading CLOSED, and one in ENTERING with it OPEN (R125). -/
theorem test_witness_completion :
    (let s := grading ⟨63, 15⟩ (seat 11 63 (visitAt .entering) .reset);
      s.prst = false ∧ s.grader.inFlight = some (11, scanOf ⟨63, 15⟩) ∧ s.named ⟨63, 15⟩ = none
      ∧ (∀ m : Lane, s.grader.lanes[m].pending = none)
      ∧ (∀ w : Fin 64, (s.visit w).all fun y => y.grading != .closing && y.state != .checking))
    ∧ (let s := grading ⟨63, 0⟩ (seat 11 63 { visitAt .held with grading := .closed } .reset);
      s.named ⟨63, 0⟩ = some { visitAt .held with grading := .closed }
      ∧ (∀ w : Fin 64, (s.visit w).all fun y => y.grading != .closing && y.state != .checking)
      ∧ (after .gradingCompletion s).grader.lanes[(11 : Lane)].late = 1)
    ∧ (let s := grading ⟨63, 0⟩ (seat 11 63 (visitAt .entering) .reset);
      s.named ⟨63, 0⟩ = some (visitAt .entering) ∧ (visitAt .entering).grading = .isOpen
      ∧ ((after .gradingCompletion s).visit 63).map (·.stability.two.scans) = some 1) := by decide

/-- A scan that completes for a stale handle while the lane's visit is CLOSING, in HELD and in CHECKING with its card
DONE; for a visit EN_ROUTE; for an OPEN visit whose position it settles; and for the CLOSING visit itself (R125, R134,
R135). -/
theorem test_witness_completion_closes :
    (let x (st : VisitState) (g : GradingState) : Visit :=
        { visitAt st with
          lane := 11, grading := g, card := .done, settleExpired := true, dropLegs := some 1
          legs := [legOf .pending none] };
      let s (h : Handle) (x : Visit) : State := grading h (seat 11 63 x .reset);
      let shows (s : State) : Option (VisitState × GradingState × Nat) :=
        ((after .gradingCompletion s).visit 63).map fun z => (z.state, z.grading, z.stability.two.scans);
      (∀ n : Lane, n ≠ 11 → ((s ⟨63, 15⟩ (x .held .closing)).lane n).resident = none)
      ∧ (∀ w : Fin 64, w ≠ 63 → (s ⟨63, 15⟩ (x .held .closing)).visit w = none)
      ∧ (s ⟨63, 15⟩ (x .held .closing)).named ⟨63, 15⟩ = none
      ∧ (s ⟨63, 0⟩ (x .held .closing)).named ⟨63, 0⟩ = some (x .held .closing)
      ∧ (s ⟨63, 0⟩ (x .enRoute .closed)).named ⟨63, 0⟩ = some (x .enRoute .closed)
      ∧ shows (s ⟨63, 15⟩ (x .held .closing)) = some (.held, .closed, 0)
      ∧ shows (s ⟨63, 15⟩ (x .checking .closing)) = some (.held, .closed, 0)
      ∧ shows (s ⟨63, 0⟩ (x .held .closing)) = some (.held, .closed, 1)
      ∧ shows (s ⟨63, 0⟩ (x .enRoute .closed)) = some (.enRoute, .closed, 0)
      ∧ shows { s ⟨63, 0⟩ (x .checking .isOpen) with grader := { (s ⟨63, 0⟩ (x .checking .isOpen)).grader with
          params := { Params.default with k := 1 } } } = some (.held, .closed, 1)
      ∧ shows (s ⟨63, 0⟩ (x .checking .isOpen)) = some (.checking, .isOpen, 1)) := by decide

/-- A scan of lane 12 that names a visit on lane 1: the grading closes early unless lane 1's pending slot holds a scan
that is awaited, and it is lane 1 that ends its CHECKING (R125, R134; notes/assumptions/12). -/
theorem test_witness_completion_other_lane :
    (let x : Visit := { visitAt .checking with
        card := .done, settleExpired := true, dropLegs := some 1, legs := [legOf .pending none] };
      let s0 := grading ⟨63, 0⟩ (seat 0 63 x .reset);
      let s : State := { s0 with grader := { s0.grader with params := { Params.default with k := 1 } } };
      let shows (s : State) : Option (VisitState × GradingState × Nat) :=
        ((after .gradingCompletion s).visit 63).map fun z => (z.state, z.grading, z.stability.two.scans);
      let waits : Scan := { scanOf ⟨63, 0⟩ with pos := .one };
      s.Resident 0 63 x ∧ x.lane = 0 ∧ s.named ⟨63, 0⟩ = some x ∧ (s.lane 11).resident ≠ some 63
      ∧ shows s = some (.held, .closed, 1) ∧ shows s0 = some (.checking, .isOpen, 1)
      ∧ ((after .gradingCompletion s).lane 0).dwell.limit = .hold
      ∧ shows { s with grader := { s.grader with
          lanes := s.grader.lanes.set 0 { s.grader.lanes[(0 : Lane)] with pending := some waits } } }
        = some (.checking, .isOpen, 1)) := by
  refine ⟨⟨rfl, rfl⟩, rfl, ?_⟩
  decide

/-! ### Witnesses: visits -/

/-- VISIT_QUERY; VISIT_CLOSE of a resident visit, and of one EN_ROUTE at generation 15 with and without a lane that
waits (R86, R87). -/
theorem test_witness_visit_close :
    (∀ code st fields, (ask (seat 11 63 (visitAt st) .reset) code fields).Ready code (frame code fields) [])
    ∧ (seat 11 63 (visitAt .held) .reset).visit 63 = some (visitAt .held)
    ∧ (let resident := seat 11 63 (visitAt .held) .reset;
      let gone : State := { State.reset with
        visits := State.reset.visits.set 63 ⟨15, some (visitAt .enRoute)⟩, freeCount := 63 };
      gone.visit 63 = some (visitAt .enRoute) ∧ gone.openWait = [] ∧ gone.yard.queue = []
      ∧ result .visitQuery (ask resident 0x28#8 [63, 0]) = some .ok
      ∧ result .visitClose (ask resident 0x2A#8 [63, 0]) = some .laneBusy
      ∧ (after .visitClose (ask gone 0x2A#8 [63, 15])).visits[63] = ⟨0, none⟩
      ∧ (after .visitClose (ask gone 0x2A#8 [63, 15])).freeCount = 64
      ∧ ((after .visitClose (ask { gone with openWait := [11] } 0x2A#8 [63, 15])).visit 63).map (·.lane) = some 11
      ∧ (after .visitClose (ask { gone with openWait := [11] } 0x2A#8 [63, 15])).freeCount = 63) :=
  ⟨fun _ _ _ => ask_ready _ _ rfl rfl rfl, rfl, by decide⟩

/-- The clean visit, HELD with its card DONE. -/
def decideState (card : CardField) : State :=
  seat 11 63 { cleanVisit with state := .held, lane := 11, card := card }
    (withBook (booking .inLane (some 480) (some ⟨63, 0⟩)))

/-- VISIT_DECIDE of an open visit on no lane, EN_ROUTE and REJECTED: TURN_AWAY, a list that matches its one leg, and one
that does not (R152). -/
theorem test_witness_decide_gone :
    (∀ visits fields, (ask { State.reset with visits := visits } 0x29#8 fields).Ready 0x29#8 (frame 0x29#8 fields) [])
    ∧ (let s (st : VisitState) : State := { State.reset with
          visits := State.reset.visits.set 63 ⟨0, some { cleanVisit with state := st }⟩ };
      (∀ n : Lane, ((s .enRoute).lane n).resident = none)
      ∧ (s .enRoute).visit 63 = some { cleanVisit with state := .enRoute }
      ∧ result .visitDecide (ask (s .enRoute) 0x29#8 [63, 0, 0]) = some .wrongState
      ∧ result .visitDecide (ask (s .rejected) 0x29#8 [63, 0, 0]) = some .wrongState
      ∧ result .visitDecide (ask (s .enRoute) 0x29#8 [63, 0, 1, 1, 0]) = some .wrongState
      ∧ result .visitDecide (ask (s .rejected) 0x29#8 [63, 0, 1, 2, 0, 0]) = some .badParam) :=
  ⟨fun _ _ => ask_ready _ _ rfl rfl rfl, by decide⟩

/-- VISIT_DECIDE: a visit that is not HELD, a card PENDING, TURN_AWAY, and lists of one choice and of a wrong number
(R152 to R156). -/
theorem test_witness_decide :
    (∀ card fields, (ask (decideState card) 0x29#8 fields).Ready 0x29#8 (frame 0x29#8 fields) [])
    ∧ (∀ card, (decideState card).Resident 11 63 { cleanVisit with state := .held, lane := 11, card := card })
    ∧ (let s := decideState .done;
      choiceCheck s.book (s.handle 63) cleanVisit.legs [.yard] = none ∧ (∃ c ∈ [Choice.yard], c ≠ .drop)
      ∧ [Choice.yard].length = cleanVisit.legs.length ∧ cleanVisit.legs ≠ [] ∧ cleanVisit.legs.length ≤ 2
      ∧ result .visitDecide (ask (decideState .pending) 0x29#8 [63, 0, 0]) = some .wrongState
      ∧ result .visitDecide (ask (seat 11 63 (visitAt .checking) .reset) 0x29#8 [63, 0, 0]) = some .wrongState
      ∧ ((after .visitDecide (ask s 0x29#8 [63, 0, 0])).visit 63).map (fun x => (x.state, x.outcome))
        = some (.releasing, some .turnAway)
      ∧ tableFind 8191 (after .visitDecide (ask s 0x29#8 [63, 0, 0])).book.records
          = some (booking .booked (some 480) none)
      ∧ ((after .visitDecide (ask s 0x29#8 [63, 0, 1, 1, 0])).visit 63).map (fun x => (x.state, x.source))
        = some (.yardWait, some .server)
      ∧ ((after .visitDecide (ask s 0x29#8 [63, 0, 1, 1, 1])).visit 63).map (fun x => (x.state, x.legs.map (·.dest)))
        = some (.directing, [some (.bay 0)])
      ∧ result .visitDecide (ask s 0x29#8 [63, 0, 1, 0]) = some .badParam) :=
  ⟨fun _ _ => ask_ready _ _ rfl rfl rfl, fun _ => ⟨rfl, rfl⟩, by decide⟩

/-- A leg that its choice does not fit, a list of DROP alone, an INSPECT, and a list too long (R152 to R156). -/
theorem test_witness_decide_lists :
    (let s := decideState .done;
      let req (cs : List Byte) : State := ask s 0x29#8 ([63, 0, 1] ++ cs);
      let pickup : Leg := { legOf .pending none with kind := some .importPickup };
      choiceCheck s.book ⟨63, 0⟩ [pickup] [.inspect] ≠ none
          ∧ choiceCheck s.book ⟨63, 0⟩ cleanVisit.legs [.inspect] = none
      ∧ ((after .visitDecide (req [1, 2])).visit 63).map (·.outcome) = some (some .turnAway)
      ∧ result .visitDecide (req [2, 0, 0]) = some .badParam ∧ result .visitDecide (req [0])
          = some .badParam) := by decide

/-- An expiry not due, and each due one in its state; the hold timeout with the card PENDING and not (R74, R77, R80,
R157). -/
theorem test_witness_expiries :
    (∀ st, (seat 11 63 (visitAt st) .reset).Resident 11 63 (visitAt st))
    ∧ (∀ k, let s := expired 11 k (seat 11 63 (visitAt .held) .reset);
      (s.lane 11).dwell.limit = k ∧ 0 < (s.lane 11).dwell.due ∧ (s.lane 11).resident = some 63 ∧ s.prst = false)
    ∧ (let at_ (k : LimitKind) (x : Visit) : State := expired 11 k (seat 11 63 x .reset);
      let state (c : Instr) (s : State) : Option VisitState := ((after c s).visit 63).map (·.state);
      ((seat 11 63 (visitAt .held) .reset).lane 11).dwell.due = 0
      ∧ state (.approachLimitExpiry 11) (at_ .approach (visitAt .entering)) = some .held
      ∧ state (.holdTimeout 11) (at_ .hold { visitAt .held with card := .pending }) = some .held
      ∧ state (.holdTimeout 11) (at_ .hold (visitAt .held)) = some .releasing
      ∧ state (.yardWaitLimitExpiry 11) (at_ .yardWait (visitAt .yardWait)) = some .held
      ∧ (after (.clearLimitExpiry 11) (at_ .clear (visitAt .releasing))).link.changes = [.lane 11]) :=
  ⟨fun _ => ⟨rfl, rfl⟩, fun k => by cases k <;> decide, by decide⟩

/-- The clear limit in a lane in RELEASING with no visit (R80, R83). -/
theorem test_witness_clear :
    (let s := expired 11 .clear { State.reset with
        lanes := State.reset.lanes.set 11 { LaneUnit.reset with mode := .auto, releasing := true } };
      (s.lane 11).resident = none ∧ (s.lane 11).releasing = true ∧ (s.lane 11).dwell.limit = .clear
      ∧ 0 < (s.lane 11).dwell.due ∧ s.prst = false
      ∧ ((after (.clearLimitExpiry 11) s).lane 11).clearOverdue = true
      ∧ (after (.clearLimitExpiry 11) s).link.changes = [.lane 11]) := by decide

/-! ### Witnesses: the Yard Allocator -/

/-- A yard with blocks 0 and 47 defined, nothing in use but by stack group 31, which names block 47. -/
def yardState : State :=
  { State.reset with
    yard := { Yard.reset with
      blocks := ((Yard.reset.blocks).set 0 ⟨.isOpen, some (Text.of "A01"), some .both, 100, 0, 0, some []⟩).set 47
        ⟨.isOpen, some (Text.of "A47"), some .both, 100, 0, 0, some []⟩
      groups := Yard.reset.groups.set 31 [47] } }

/-- Counts of 4000 and 4001; a block in use and one not; groups with a defined, an UNDEFINED and a repeated block; bay
codes of 1, 4, 0 and 5 characters; blocks 47 and 48 (R163 to R167, R181). -/
theorem test_witness_yard :
    (∀ code fields, (ask yardState code fields).Ready code (frame code fields) [])
    ∧ (yardState.yard.queue = [] ∧ yardState.yard.blocks[(47 : Fin 48)].state ≠ .undefined
      ∧ (∀ c : Fin 48, c ≠ 47 → yardState.yard.blocks[c].state ≠ .undefined →
        yardState.yard.blocks[c].code ≠ yardState.yard.blocks[(47 : Fin 48)].code)
      ∧ yardState.yard.groups[(31 : Fin 32)] = [47] ∧ yardState.blockInUse 0 = false)
    ∧ (let set_ (b : Byte) (cap occ : Nat) : State :=
        ask yardState 0x38#8 ([b, 0, 0, 0] ++ eOpt e2 (some cap) ++ eOpt e2 (some occ) ++ [0]);
      ((after .blockSet (set_ 47 4000 4000)).yard.blocks[(47 : Fin 48)].capacity) = 4000
      ∧ result .blockSet (set_ 47 4001 0) = some .badParam ∧ result .blockSet (set_ 47 0 4001) = some .badParam
      ∧ result .blockSet (ask yardState 0x38#8 [47, 1, 0, 0, 0, 0, 0, 0]) = some .inUse
      ∧ result .blockSet (ask yardState 0x38#8 [0, 1, 0, 0, 0, 0, 0, 0]) = some .ok)
    ∧ (answer .groupSet (ask yardState 0x3A#8 [31, 1, 2, 47, 0]) = some (.ok, [2, 47, 0])
      ∧ result .groupSet (ask yardState 0x3A#8 [31, 1, 1, 1]) = some .badParam
      ∧ result .groupSet (ask yardState 0x3A#8 [31, 1, 2, 0, 0]) = some .badParam
      ∧ answer .groupSet (ask yardState 0x3A#8 [31, 0]) = some (.ok, [1, 47]))
    ∧ (let bay (code : List Byte) : State := ask yardState 0x3B#8 ([3] ++ eOpt eRaw (some code) ++ [0, 0]);
      ((after .baySet (bay [0x41])).yard.bays[(3 : Fin 4)].code) = [0x41]
      ∧ result .baySet (bay [0x41, 0x42, 0x43, 0x44]) = some .ok ∧ result .baySet (bay []) = some .badParam
      ∧ result .baySet (bay [0x41, 0x42, 0x43, 0x44, 0x45]) = some .badParam)
    ∧ (result .blockQuery (ask yardState 0x39#8 [1, 47]) = some .ok
      ∧ result .blockQuery (ask yardState 0x39#8 [1, 48]) = some .badParam
      ∧ result .blockQuery (ask yardState 0x39#8 [0]) = some .ok) :=
  ⟨fun _ _ => ask_ready _ _ rfl rfl rfl, by decide, by decide, by decide, by decide, by decide⟩

/-- BLOCK_SET of an UNDEFINED block, finished, unfinished and not defined at all; a code that another block has, codes
of 0, 4 and 5 characters, and UNDEFINED with another value (R163). -/
theorem test_witness_block_set :
    (let set_ (b : Byte) (st : Option BlockState) (code : Option (List Byte)) (acc : Option Accepts) (route : Option (List Byte)) :
          State := ask yardState 0x38#8 ([b] ++ eOpt (fun q : BlockState => e1 q.code) st ++ eOpt eRaw code
        ++ eOpt (fun q : Accepts => e1 q.code) acc ++ [0, 0] ++ eOpt eRaw route);
      let code (t : List Byte) : Option (List Byte) := some t;
      yardState.yard.blocks[(1 : Fin 48)].state = .undefined
      ∧ (after .blockSet (set_ 1 (some .closed) (code [0x61, 0x42, 0x43, 0x39]) (some .both) none)).yard.blocks[(1 : Fin 48)]
        = ⟨.closed, some (Text.of "ABC9"), some .both, 0, 0, 0, some []⟩
      ∧ result .blockSet (set_ 1 (some .isOpen) (code [0x41]) none none) = some .badParam
      ∧ result .blockSet (set_ 1 (some .isOpen) none (some .both) none) = some .badParam
      ∧ result .blockSet (set_ 1 none (code [0x41]) (some .both) none) = some .wrongState
      ∧ result .blockSet (set_ 1 none none none none) = some .ok
      ∧ result .blockSet (set_ 1 (some .isOpen) (code [0x41, 0x34, 0x37]) (some .both) none) = some .badParam
      ∧ result .blockSet (set_ 47 none (code [0x41, 0x34, 0x37]) none none) = some .ok
      ∧ result .blockSet (set_ 47 none (code []) none none) = some .badParam
      ∧ result .blockSet (set_ 47 none (code [0x41, 0x41, 0x41, 0x41, 0x41]) none none) = some .badParam
      ∧ result .blockSet (set_ 0 (some .undefined) none (some .both) none) = some .badParam
      ∧ ((after .blockSet (set_ 47 none none (some .exportFull) (code [0x6E, 0x31]))).yard.blocks[(47 : Fin 48)]).route
        = some (Text.of "N1")) := by decide

/-- The clean visit with its leg at YARD, on lane 12, in the gate of `cleanState`. -/
def toPlace (group : List (Fin 48)) : State :=
  seat 11 63 { cleanVisit with lane := 11, legs := [legOf .yard none] } (cleanState group .once)

/-- The leg's block takes it, with room for exactly its TEU and with one less (R168, R169). -/
theorem test_witness_place :
    (toPlace [0]).Gives [legOf .yard none] [some (.block 0)] 0 (legOf .yard none) (.block 0)
    ∧ (legOf .yard none).IsPlaced
    ∧ (∀ dests d, ¬ (toPlace []).Gives [legOf .yard none] dests 0 (legOf .yard none) d)
    ∧ (let s := toPlace [0];
      let full (capacity : Nat) : State := s.modBlock 0 fun b => { b with capacity := capacity };
      (s.visit 63).map (·.legs) = some [legOf .yard none]
      ∧ (((full 2).place 63).map fun t => t.yard.blocks[(0 : Fin 48)].reserved) = some 2
      ∧ ((full 1).place 63).isNone = true ∧ ((toPlace []).place 63).isNone = true
      ∧ (((toPlace []).allocate 11 63).visit 63).map (·.state) = some .yardWait
      ∧ ((s.allocate 11 63).visit 63).map (·.state) = some .directing) := by
  refine ⟨⟨rfl, .exportFull, booking .inLane (some 480) (some ⟨63, 0⟩), rfl, ⟨8191, rfl, by decide, rfl⟩,
    fun _ => ⟨3, rfl, [], [], rfl, ⟨rfl, .inl rfl, by decide⟩, by simp⟩, by simp⟩, ⟨.inl rfl, rfl⟩, ?_, by decide⟩
  rintro dests (b | b) h
  · obtain ⟨-, k, r, hk, ⟨n, hn, hr, -⟩, h1, -⟩ := h
    cases hk; cases hn
    have : tableFind 8191 (toPlace []).book.records = some (booking .inLane (some 480) (some ⟨63, 0⟩)) := by decide
    rw [this] at hr; cases hr
    obtain ⟨g, hg, before, after, hl, -⟩ := h1 (.inl rfl)
    obtain rfl : g = 3 := Fin.ext (Option.some.inj hg).symm
    have : (toPlace []).yard.groups[(3 : Fin 32)] = [] := by decide
    simp [this] at hl
  · exact absurd h.1 (by decide)

/-- A retry places the visit that waits once its group has a block (R173, R174). -/
theorem test_witness_retry :
    (let s (group : List (Fin 48)) : State := seat 11 63 { cleanVisit with
          lane := 11, state := .yardWait, legs := [legOf .yard none] } (cleanState group .once);
      let waits (group : List (Fin 48)) : State := { s group with yard := { (s group).yard with queue := [⟨63, 0⟩] } };
      ((waits [0]).named ⟨63, 0⟩).isSome = true
      ∧ ((waits [0]).retry.yard.queue, ((waits [0]).retry.visit 63).map (·.state)) = ([], some .directing)
      ∧ ((waits []).retry.yard.queue, ((waits []).retry.visit 63).map (·.state)) = ([⟨63, 0⟩], some .yardWait)) := by decide

/-- A visit EN_ROUTE with one leg. -/
def routed (l : Leg) : State :=
  { yardState with visits := yardState.visits.set 63 ⟨0, some { visitAt .enRoute with legs := [l] }⟩ }

/-- A pickup leg to a destination. -/
def pickupLeg : Leg := { legOf .yard (some (.block 47)) with kind := some .importPickup }

/-- Leg numbers 0, 1, 2 and 3; a drop, a pickup and an inspection leg; a leg without a destination (R176, R177). -/
theorem test_witness_leg_done :
    (∀ l fields, (ask (routed l) 0x3C#8 fields).Ready 0x3C#8 (frame 0x3C#8 fields) [])
    ∧ (∀ l, (routed l).visit 63 = some { visitAt .enRoute with legs := [l] })
    ∧ (let drop := legOf .yard (some (.block 47));
      let done (l : Leg) (i : Byte) : Option Result := result .legDone (ask (routed l) 0x3C#8 [63, 0, i]);
      let counts (l : Leg) (occ res : Nat) : Option (Nat × Nat) :=
        let s := ask (routed l) 0x3C#8 [63, 0, 1]
        let b := (after .legDone (s.modBlock 47 fun b => { b with occupied := occ, reserved := res })).yard.blocks[(47 : Fin 48)]
        some (b.occupied, b.reserved);
      (done drop 0, done drop 2, done drop 3) = (some .badParam, some .badParam, some .badParam)
      ∧ done (legOf .yard none) 1 = some .wrongState ∧ done { drop with done := true } 1 = some .wrongState
      ∧ (counts drop 3999 2, counts drop 0 2, counts pickupLeg 2 0, counts pickupLeg 1 0)
        = (some (4000, 0), some (2, 0), some (0, 0), some (0, 0))
      ∧ done (legOf .inspect (some (.bay 3))) 1 = some .ok) :=
  ⟨fun _ _ => ask_ready _ _ rfl rfl rfl, fun _ => rfl, by decide⟩

/-! ### Witnesses: the Sign Units -/

/-- SIGN_SET with everything unchanged, and with each class (R198, R199). -/
theorem test_witness_sign_set :
    (∀ fields, (ask .reset 0x40#8 fields).Ready 0x40#8 (frame 0x40#8 fields) [])
    ∧ ((∀ m : Lane, (State.reset.sign m).job ≠ .idle) ∧ (∀ m : Lane, (State.reset.lane m).resident = none)
      ∧ (State.reset.sign 11).cls ≠ .line2 ∧ (State.reset.sign 11).effective ≠ .off
      ∧ result .signSet (ask .reset 0x40#8 [12, 0, 0, 0, 0]) = some .ok
      ∧ ((after .signSet (ask .reset 0x40#8 [12, 1, 0, 1, 0, 0, 1])).sign 11).job
        = .sending ⟨[[Text.of "LANE", Text.of "12", Text.of "STAFFED"], []], 1, 1, 1, none, false⟩
      ∧ ((after .signSet (ask .reset 0x40#8 [12, 1, 2, 1, 1, 0, 1])).sign 11).job = .idle
      ∧ ((after .signSet (ask .reset 0x40#8 [12, 1, 1, 1, 2, 0, 1])).sign 11).mirror.length = 4) :=
  ⟨fun _ => reset_ready _ _, by decide⟩

/-- A sign that shows its content, on a lane with a visit. -/
def shownState (st : VisitState) (cls : SignClass) (mode : SendMode) : State :=
  let s := seat 11 63 { visitAt st with
    lane := 11, outcome := some .admission, legs := [legOf .yard (some (.block 0))] } (cleanState [0] mode)
  let t : State := { s with signs := s.signs.set 11 { s.sign 11 with cls := cls, job := .idle } }
  { t with signs := t.signs.set 11 { t.sign 11 with
      mirror := ((content t 11).map some ++ List.replicate cls.lines none).take cls.lines } }

/-- SIGN_SET at a quiet sign: everything unchanged, the desk route alone, a class alone with the same class, and on a
lane with a visit in DIRECTING a new class, TICKET, and the mode OFF (R198, R199). -/
theorem test_witness_sign_set_directing :
    (∀ st cls mode fields, (ask (shownState st cls mode) 0x40#8 fields).Ready 0x40#8 (frame 0x40#8 fields) [])
    ∧ (let s := shownState .directing .line4 .once;
      let job (fields : List Byte) : JobState := ((after .signSet (ask s 0x40#8 (12 :: fields))).sign 11).job;
      (s.lane 11).resident = some 63 ∧ (s.visit 63).map (·.state) = some .directing ∧ (s.sign 11).reportMark = false
      ∧ (s.sign 11).job = .idle ∧ (∀ m : Lane, (s.sign m).job = .idle → jobDue s m false = none)
      ∧ job [0, 0, 0, 1] = .idle
      ∧ ((after .signSet (ask s 0x40#8 [12, 0, 0, 1, 2, 0x61, 0x31, 1])).sign 11).desk = Text.of "A1"
      ∧ job [1, 1, 0, 0, 1] = .idle
      ∧ job [1, 0, 0, 0, 1] = .sending ⟨[[Text.of "LANE", Text.of "12"], [Text.of "BLOCK", Text.of "A01"]], 1, 1, 1,
        some ⟨63, 0⟩, true⟩
      ∧ job [1, 2, 0, 0, 1] = .sending ⟨[[Text.of "LANE", Text.of "12"], [Text.of "BOOKING", Text.of "EXA00101"],
        [Text.of "BLOCK", Text.of "A01"]], 1, 1, 1, some ⟨63, 0⟩, true⟩
      ∧ job [0, 1, 2, 0, 1] = .idle
      ∧ ((after .signSet (ask s 0x40#8 [12, 0, 1, 2, 0, 1])).visit 63).map (·.state) = some .releasing) :=
  ⟨fun _ _ _ _ => ask_ready _ _ rfl rfl rfl, by decide⟩

/-- A reply of the sign of lane 12. -/
def replied (seq line verdict : Nat) : Instr :=
  .signReply 11 (received 0x21 [BitVec.ofNat 8 seq, BitVec.ofNat 8 line, BitVec.ofNat 8 verdict])

/-- Lane 12's sign with some job and mode, one refresh event due and its reply timer expired. -/
def signState (mode : SendMode) (job : JobState) : State :=
  let s := seat 11 63 (visitAt .held) .reset;
  { s with
    lanes := s.lanes.set 11 { s.lane 11 with refreshDue := 1 }
    signs := s.signs.set 11 { s.sign 11 with
      mode := mode, job := job, replyDue := true, mirror := (content s 11).map some } }

/-- The job in execution on that sign, for the held visit. -/
def signJob (subject : Option Handle) : Job := ⟨[[Text.of "A"], []], 1, 1, 255, subject, false⟩

/-- A reply with the wrong sequence value and with the wrong line, an ACCEPT and a REFUSE of the awaited line, the
reply timer's expiry, with a subject that stands and one that does not (R189, R192, R193). -/
theorem test_witness_sign_job :
    (∀ mode job, (signState mode job).Resident 11 63 (visitAt .held))
    ∧ (let s := signState .once (.sending (signJob (some ⟨63, 0⟩)));
      let shown (c : Instr) : JobState × Nat := (((after c s).sign 11).job, ((after c s).sign 11).faults);
      s.prst = false ∧ (s.sign 11).replyDue = true ∧ 0 < (s.lane 11).refreshDue ∧ (State.reset.lane 11).refreshDue = 0
      ∧ s.named ⟨63, 0⟩ = some (visitAt .held) ∧ s.named ⟨63, 1⟩ = none
      ∧ (∀ m : Lane, (s.lane m).resident = if m = 11 then some 63 else none)
      ∧ shown (replied 254 1 0) = (.sending (signJob (some ⟨63, 0⟩)), 0)
      ∧ shown (replied 255 2 0) = (.sending (signJob (some ⟨63, 0⟩)), 0)
      ∧ shown (replied 255 1 0) = (.sending { signJob (some ⟨63, 0⟩) with awaited := 2, seq := 1 }, 0)
      ∧ shown (replied 255 1 1) = (.hold, 1) ∧ shown (.replyTimerExpiry 11) = (.hold, 1)
      ∧ ((after (.replyTimerExpiry 11) s).visit 63).map (·.signFault) = some true
      ∧ (after (.replyTimerExpiry 11) (signState .once (.sending (signJob (some ⟨63, 1⟩))))).link.changes = []) :=
  ⟨fun _ _ => ⟨rfl, rfl⟩, by decide⟩

/-- The same on a lane with a visit in DIRECTING: a reply that is not awaited, an ACCEPT of a line that is not the last,
and a refresh event while SENDING (R189, R192, R194). -/
theorem test_witness_sign_job_directing :
    (let job := signJob (some ⟨63, 0⟩);
      let s0 := signState .once (.sending job);
      let s : State := { s0 with visits := s0.visits.set 63 { s0.visits[63] with visit := some (visitAt .directing) } };
      s.prst = false ∧ (s.sign 11).job = .sending job ∧ s.visit 63 = some (visitAt .directing)
      ∧ (s.lane 11).resident = some 63 ∧ job.seq < 256 ∧ job.awaited + 1 < job.first + job.lines.length
      ∧ 0 < (s.lane 11).refreshDue
      ∧ ((after (replied 254 1 0) s).sign 11).job = .sending job
      ∧ ((after (replied 255 1 0) s).sign 11).job = .sending { job with awaited := 2, seq := 1 }
      ∧ ((after (replied 255 1 0) s).sign 11).sent.getLast? = some (.line 1 2 false [])
      ∧ ((after (.refreshEvent 11) s).sign 11).job = .sending job
      ∧ ((after (.refreshEvent 11) s).visit 63).map (·.state) = some .directing) := by decide

/-- A refresh event at a quiet ONCE, REPEAT and OFF display, at a TICKET, in HOLD and in SENDING (R194). -/
theorem test_witness_refresh :
    (let s := signState .once .idle;
      s.prst = false ∧ (s.sign 11).job = .idle ∧ (s.sign 11).cls ≠ .ticket
      ∧ ((after (.refreshEvent 11) s).sign 11).sent.getLast? = some .keepalive)
    ∧ (((after (.refreshEvent 11) (signState .repeating .idle)).sign 11).job
        = .sending ⟨content (signState .repeating .idle) 11, 1, 1, 1, some ⟨63, 0⟩, false⟩
      ∧ ((after (.refreshEvent 11) (signState .off .idle)).sign 11).job = .idle
      ∧ ((after (.refreshEvent 11) (signState .off .hold)).sign 11).job = .idle
      ∧ ((after (.refreshEvent 11) (signState .once (.sending (signJob none)))).sign 11).job = .sending (signJob none)) := by
  decide

/-- An ACCEPT of the last line ends the job; a refresh event ends a HOLD, and every line is sent again to a mirror
that is UNKNOWN, while a ticket without its print due mark stays quiet (R192, R194). -/
theorem test_witness_sign_job_ends :
    (let s := signState .once (.sending { signJob none with awaited := 2 });
      (s.sign 11).job = .sending { signJob none with awaited := 2 }
      ∧ ((after (replied 255 2 0) s).sign 11).mirror
          = [some [Text.of "PLEASE", Text.of "WAIT"], some [], some [], some []]
      ∧ ((after (replied 255 2 0) s).sign 11).job
        = .sending ⟨[[Text.of "GATE", Text.of "CLERK"]], 2, 2, 1, some ⟨63, 0⟩, false⟩)
    ∧ (let s (mode : SendMode) : State := signState mode .hold;
      let u (mode : SendMode) : State := { s mode with signs := (s mode).signs.set 11 { (s mode).sign 11 with
        mirror := [none, none, none, none] } };
      ((after (.refreshEvent 11) (u .once)).sign 11).job = .sending ⟨content (s .once) 11, 1, 1, 1, some ⟨63, 0⟩, false⟩
      ∧ ((after (.refreshEvent 11) (u .repeating)).sign 11).job
        = .sending ⟨content (s .once) 11, 1, 1, 1, some ⟨63, 0⟩, false⟩
      ∧ ((after (.refreshEvent 11) (s .once)).sign 11).job = .idle) := by decide

/-- The truncation at the width, one above it, and at a word that starts at the end (R184); the content of each kind of
display, and of a TICKET, on a lane in DIRECTING and in RELEASING (R185 to R187). -/
theorem test_witness_sign_content :
    (let w (n : Nat) : Text := List.replicate n 65;
      lineWidth [w 8, w 7] = 16 ∧ truncLine 16 [w 8, w 7] = [w 8, w 7] ∧ truncLine 16 [w 8, w 8, w 1] = [w 8, w 7]
      ∧ truncLine 16 [w 15, w 1] = [w 15] ∧ truncLine 16 [w 17] = [w 16])
    ∧ (let lines (st : VisitState) (cls : SignClass) : List Line := content (shownState st cls .once) 11;
      lines .entering .line2 = [[Text.of "DRIVE", Text.of "TO"], [Text.of "STOP", Text.of "LINE"]]
      ∧ lines .directing .line4 = [[Text.of "LANE", Text.of "12"], [Text.of "BLOCK", Text.of "A01"], [], []]
      ∧ lines .releasing .line2 = [[Text.of "LANE", Text.of "12"], [Text.of "BLOCK", Text.of "A01"]]
      ∧ lines .releasing .ticket = []
      ∧ (lines .directing .ticket).length = 3
      ∧ content .reset 11 = [[Text.of "LANE", Text.of "12", Text.of "STAFFED"], [], [], []]
      ∧ ((shownState .directing .line4 .once).sign 11).mirror.length = SignClass.count .line4) := by decide

/-- The range of a ONCE job between the first and the last differing line, REPEAT, OFF, and a ticket with and without
its print due mark (R190 to R192). -/
theorem test_witness_sign_start :
    (let s (cls : SignClass) (mode : SendMode) (due : Bool) : State :=
        let t := shownState .directing cls mode
        { t with signs := t.signs.set 11 { t.sign 11 with
            mirror := (t.sign 11).mirror.modify 1 fun _ => none, printDue := due } };
      let job (u : State) : JobState := (u.startJobs.sign 11).job;
      let text : Line := [Text.of "BLOCK", Text.of "A01"];
      job (s .line4 .once false) = .sending ⟨[text], 2, 2, 1, some ⟨63, 0⟩, true⟩
      ∧ job (s .line2 .repeating false) = .sending ⟨[[Text.of "LANE", Text.of "12"], text], 1, 1, 1, some ⟨63, 0⟩, true⟩
      ∧ job (s .line4 .off false) = .idle ∧ job (s .ticket .off false) = .idle
      ∧ job (s .ticket .once true) = .sending ⟨[[Text.of "LANE", Text.of "12"], [Text.of "BOOKING", Text.of "EXA00101"],
        text], 1, 1, 1, some ⟨63, 0⟩, true⟩
      ∧ job (shownState .directing .line4 .once) = .idle) := by decide

/-- The four cases of R195: a job that carried the directions, a failed job of the visit, OFF, and a display that
shows them; a visit reported already, a job of another subject, and an open visit that is the subject of another
lane's job. -/
theorem test_witness_directions :
    (∀ st cls mode, (shownState st cls mode).Resident 11 63 { visitAt st with
      lane := 11, outcome := some .admission, legs := [legOf .yard (some (.block 0))] })
    ∧ (let state (u : State) : Option VisitState := (u.visit 63).map (·.state);
      let s := shownState .directing .line4 .once;
      let busy (j : Job) (mark : Bool) : State := { s with signs := s.signs.set 11 { s.sign 11 with
        job := .sending j, reportMark := mark, replyDue := true, mirror := (s.sign 11).mirror.modify 0 fun _ => none } };
      let own (last : Nat) (directions : Bool) : Job :=
        ⟨[[Text.of "A"], []], last - 1, last, 255, some ⟨63, 0⟩, directions⟩;
      let other : Job := { own 4 false with subject := some ⟨62, 0⟩ };
      (s.sign 11).mirror.length = (s.sign 11).cls.count
      ∧ state (s.enterDirecting 11 63) = some .releasing
      ∧ state ((shownState .directing .line4 .off).enterDirecting 11 63) = some .releasing
      ∧ state ((busy (own 4 true) false).enterDirecting 11 63) = some .directing
      ∧ state (after (replied 255 4 0) (busy (own 4 true) false)) = some .releasing
      ∧ state (after (replied 255 4 0) (busy (own 4 true) true)) = some .directing
      ∧ state (after (replied 255 4 0) (busy (own 4 false) false)) = some .directing
      ∧ state (after (replied 255 1 0) (busy ⟨[[Text.of "LANE", Text.of "12"]], 1, 1, 255, none, false⟩ false))
        = some .releasing
      ∧ state (after (replied 255 4 1) (busy (own 4 false) false)) = some .releasing
      ∧ state (after (.replyTimerExpiry 11) (busy (own 4 false) true)) = some .directing
      ∧ state (after (replied 255 4 1) (busy other false)) = some .directing
      ∧ (after (replied 255 4 1) (busy other false)).link.changes = []
      ∧ (after (replied 255 4 1) { busy other false with
          visits := s.visits.set 62 ⟨0, some (visitAt .enRoute)⟩ }).link.changes = [.visit 62]) :=
  ⟨fun _ _ _ => ⟨rfl, rfl⟩, by decide⟩

/-! ### Witnesses: every command, and the invariants -/

/-- A book of one booking in slot 8191. -/
theorem withBook_indexed : (withBook (booking .noShow none none)).book.Indexed := by
  have key : ∀ p ∈ (withBook (booking .noShow none none)).book.records,
      p = (8191, booking .noShow none none) := by decide
  have keyI : ∀ p ∈ (withBook (booking .noShow none none)).book.index,
      p = (homeBucket (Text.of "EXA00101"), 8191) := by decide
  refine ⟨by decide, fun n k h => ?_, fun n m k h g => ?_, fun k r h => ?_⟩
  · obtain ⟨rfl, rfl⟩ := Prod.mk.inj (keyI _ (mem_of_tableFind h)); decide
  · exact (Prod.mk.inj (keyI _ (mem_of_tableFind h))).1.trans (Prod.mk.inj (keyI _ (mem_of_tableFind g))).1.symm
  · obtain ⟨rfl, rfl⟩ := Prod.mk.inj (key _ (mem_of_tableFind h)); decide

/-- A visit in HELD on lane 12. -/
theorem held_seated : (decideState .done).Seated := by
  intro n v h
  by_cases hn : n = 11
  · subst hn; cases h; exact ⟨_, rfl, rfl, rfl⟩
  · exfalso; revert h; revert v; revert hn; revert n; decide

/-- Full queues with a response's place kept, two changes, a ring of two windows and one NO_SHOW booking. -/
theorem test_witness_invariants :
    (withBook (booking .noShow none none)).book.Kept ∧ (withBook (booking .noShow none none)).ring.Kept
    ∧ (withBook (booking .noShow none none)).time.Kept
    ∧ ({ Link.reset with
        requests := List.replicate 16 (frame 0 []), responses := List.replicate 15 ⟨0, 0, .ok, []⟩
        exec := some ⟨0x10, 0, false, .booking (.scan none 0)⟩, changes := [.lane 11, .visit 63] } : Link).Kept
    ∧ (stepped { withBook (booking .noShow none none) with pending := [.indexEngineGrant] }).book.noShow = 1 :=
  ⟨⟨by decide, by decide, rfl, rfl⟩, ring2_kept,
    ⟨by decide, by decide, by decide, by decide, by decide, by decide, by decide⟩,
    ⟨by decide, by decide, by decide, fun _ _ _ => by decide, by decide⟩, by decide⟩

/-- One ADMITTED booking in window 480, and its counts (R27). -/
theorem test_witness_counted :
    ({ withBook (booking .admitted (some 480) (some ⟨63, 0⟩)) with ring := { ring2 with windows :=
      [⟨480, .all 100, ⟨1, 0, 0, 0⟩, ⟨1, 0, 0, 0⟩⟩, ⟨510, .all 100, .all 0, .all 0⟩] } } : State).Counted := by
  have key : ∀ p ∈ (withBook (booking .admitted (some 480) (some ⟨63, 0⟩))).book.records,
      p = (8191, booking .admitted (some 480) (some ⟨63, 0⟩)) := by decide
  refine ⟨fun p hp w h => ?_, fun p hp h => ?_, fun p hp h => ?_, fun x hx k => ?_⟩
  · rw [key p hp] at h; cases h; exact ⟨⟨480, .all 100, ⟨1, 0, 0, 0⟩, ⟨1, 0, 0, 0⟩⟩, by simp, rfl⟩
  · rw [key p hp] at h; cases h
  · rw [key p hp] at h; cases h
  · cases k <;> revert x <;> decide

/-- A quiet ONCE sign among busy ones (R191), and its state after a step. -/
theorem test_witness_signs_kept :
    (shownState .directing .line4 .once).SignsKept := ⟨by decide, by decide⟩

/-- A visit on lane 12 in YARD_WAIT, in the queue, and one EN_ROUTE in slot 62 with a drop leg to block 47 and an
inspection leg in bay 4 (R162, R166, R172). -/
def yardKept : State :=
  let x : Visit := { visitAt .enRoute with
    legs := [legOf .yard (some (.block 47)), legOf .inspect (some (.bay 3))] }
  let s := seat 11 63 { visitAt .yardWait with lane := 11, legs := [legOf .yard none] } State.reset
  { s with
    visits := s.visits.set 62 ⟨0, some x⟩
    yard := { s.yard with
      blocks := s.yard.blocks.set 47 ⟨.isOpen, some (Text.of "A47"), some .both, 100, 0, 2, some []⟩
      bays := s.yard.bays.set 3 { s.yard.bays[(3 : Fin 4)] with places := [⟨⟨62, 0⟩, 2⟩] }
      queue := [⟨63, 0⟩] } }

theorem yardKept_visits (v : Fin 64) (x : Visit) (h : yardKept.visit v = some x) :
    v = 62 ∧ x = { visitAt .enRoute with legs := [legOf .yard (some (.block 47)), legOf .inspect (some (.bay 3))] }
    ∨ v = 63 ∧ x = { visitAt .yardWait with lane := 11, legs := [legOf .yard none] } := by
  have key : ∀ w : Fin 64, w = 62 ∨ w = 63 ∨ yardKept.visit w = none := by decide
  rcases key v with rfl | rfl | hn
  · cases h; exact .inl ⟨rfl, rfl⟩
  · cases h; exact .inr ⟨rfl, rfl⟩
  · rw [hn] at h; cases h

theorem named_eq {s : State} {h : Handle} {x : Visit} (hx : s.named h = some x) :
    s.visits[h.slot].gen = h.gen ∧ s.visit h.slot = some x := by
  unfold State.named at hx; split at hx
  · exact ⟨‹_›, hx⟩
  · cases hx

theorem test_witness_yard_kept : yardKept.YardKept where
  housed v x h r := by
    rcases yardKept_visits v x h with ⟨rfl, rfl⟩ | ⟨rfl, rfl⟩
    · exact absurd r (by decide)
    · rfl
  waits n h := by cases h
  follows v x h l hl := by
    rcases yardKept_visits v x h with ⟨rfl, rfl⟩ | ⟨rfl, rfl⟩ <;> revert hl <;> revert l <;>
      simp [legOf, Leg.formed]
  unplaced v x h r l hl := by
    rcases yardKept_visits v x h with ⟨rfl, rfl⟩ | ⟨rfl, rfl⟩
    · simp [visitAt] at r
    · simp at hl; subst hl; rfl
  reserved := by decide
  places b p := by
    have there : ∀ b : Fin 4, ∀ p ∈ yardKept.yard.bays[b].places, b = 3 ∧ p = ⟨⟨62, 0⟩, 2⟩ := by decide
    constructor
    · intro h
      obtain ⟨rfl, rfl⟩ := there b p h
      exact ⟨_, legOf .inspect (some (.bay 3)), rfl, by decide, rfl, by decide⟩
    · rintro ⟨x, l, hx, h1, hl, hs⟩
      obtain ⟨⟨v, g⟩, k⟩ := p
      obtain ⟨hg, hv⟩ := named_eq hx
      rcases yardKept_visits v x hv with ⟨rfl, rfl⟩ | ⟨rfl, rfl⟩
      · obtain rfl : g = 0 := hg.symm
        match k, h1 with
        | 1, _ => cases hl; simp [Leg.standsIn, legOf, Leg.formed] at hs
        | 2, _ =>
          cases hl
          have key : ∀ c : Fin 4, (legOf .inspect (some (.bay 3))).standsIn c = true → c = 3 := by decide
          obtain rfl := key b hs
          decide
        | k + 3, _ => cases hl
      · match k, h1 with
        | 1, _ => cases hl; simp [Leg.standsIn, legOf, Leg.formed] at hs
        | k + 2, _ => cases hl
  bays := by decide
  queue := ⟨by decide, by decide, fun h hh => by
    have key : ∀ h ∈ yardKept.yard.queue, h = ⟨63, 0⟩ := by decide
    obtain rfl := key h hh
    exact ⟨_, rfl, rfl⟩⟩

theorem test_witness_yard_seated : yardKept.Seated := by
  intro n v h
  have key : ∀ m : Lane, m ≠ 11 → (yardKept.lane m).resident = none := by decide
  by_cases hn : n = 11
  · subst hn; cases h; exact ⟨_, rfl, rfl, rfl⟩
  · rw [key n hn] at h; cases h

theorem test_witness_identifies_in_time :
    (identifying ⟨63, 0⟩ [] (seat 11 63 (visitAt .entering) .reset)).IdentifiesInTime := by
  intro n op h x hx _
  cases h; cases hx; exact .inl rfl

end Sys2Proof.Tests
end

section
/-!
PROOFS. What the completion of a host's booking request does, said once (R9, R10): when no lane waits, its answer is the
whole of the step. The parts behind this one settle BOOK_AMEND (R13), BOOK_CANCEL and BOOK_RETIRE (R14, R15) and the
record updates from visits (R18 to R21).
-/

namespace Sys2Proof.Machine

variable {s u : State} {e : Execution} {req : BookReq} {code : Result} {fields : List Byte}

/-- With no booking request in execution and no lane waiting there is nothing to grant (R9). -/
theorem grant_eq_self (hb : s.link.booking = none) (hw : ∀ n : Lane, s.engine.waiting[n] = none) : s.grant = s := by
  have asks : ∀ r, ¬ s.requests r = true := fun r => by
    unfold State.requests
    split
    case isTrue h => simpa using hw ⟨r.val - 1, by omega⟩
    case isFalse h => simp [hb]
  have next : s.nextGrant = none := List.find?_eq_none.2 fun r _ => asks r
  simp [State.grant, next]

/-- The step of a host request in flight is the completion of that request (R10). -/
theorem exec_indexOperationComplete (h : s.Completing e req) :
    exec .indexOperationComplete s = .next (s.completeHost e req) := by
  have inExecution : s.link.booking = some (e, req) := by simp [Link.booking, h.exec, h.work]
  change execIndexOperationComplete s = _
  simp only [execIndexOperationComplete, h.flight, inExecution, live_on h.power]

/-- The request completes in the state `u` that its answer gives, and nothing is left to grant (R10). The answer is
computed with the engine free. -/
theorem complete_of_answer (h : s.Completing e req) (engine : u.engine = s.engine)
    (answer : completeBooking s.engineFree req = ⟨u.engineFree, code, fields⟩) :
    exec .indexOperationComplete s = .next (u.completed e code fields) := by
  have ends : s.completeHost e req = (u.completed e code fields).grant := by
    simp only [State.completeHost, answer]
    rfl
  have idle : (u.completed e code fields).grant = u.completed e code fields :=
    grant_eq_self rfl fun n => by simpa [State.completed, engine] using h.alone n
  rw [exec_indexOperationComplete h, ends, idle]

/-- A refused request changes nothing and ends its execution (R10, R204). -/
theorem complete_of_refuse (h : s.Completing e req)
    (refused : completeBooking s.engineFree req = refuse s.engineFree code) :
    exec .indexOperationComplete s = .next (s.completed e code []) :=
  complete_of_answer h rfl refused

/-- A booking request finds the booking `b` in a slot: its reference is well formed and is looked up (R13 to R16). -/
structure State.Finds (s : State) (ref : Text) (slot : Nat) (b : Booking) : Prop where
  formed : ref.length = 8
  looked : s.book.lookup ref = some slot
  found : tableFind slot s.book.records = some b

/-- The search reads the book alone, so it finds the same with the engine free. -/
theorem State.Finds.engineFree {ref : Text} {slot : Nat} {b : Booking} (h : s.Finds ref slot b) :
    s.engineFree.Finds ref slot b := ⟨h.formed, h.looked, h.found⟩

end Sys2Proof.Machine
end

section
/-!
PROOFS. BOOK_AMEND (R13): its checks, one equation for each step of the rule, the move between booked counts, and the
statement.
-/

namespace Sys2Proof.Machine

variable {s : State} {r : AmendReq} {slot start : Nat} {b : Booking}

/-! ### The move between booked counts -/

@[simp] theorem Ring.moveBooked_same (ring : Ring) (w : Option Nat) (k : Kind) : ring.moveBooked w w k = ring := by
  cases w <;> simp [Ring.moveBooked]

/-- A move between two windows lowers the old one's count and raises the new one's, each alone. -/
theorem Ring.moveBooked_of_ne (ring : Ring) (k : Kind) {old start : Nat} (h : start ≠ old) :
    ring.moveBooked (some old) (some start) k = { ring with windows := ring.windows.map fun w =>
      if w.start = old then { w with booked := w.booked.put k (w.booked.get k - 1) }
      else if w.start = start then { w with booked := w.booked.put k (w.booked.get k + 1) }
      else w } := by
  simp only [Ring.moveBooked, if_neg h.symm, Ring.addBooked, Ring.subBooked, Ring.modWindow, List.map_map]
  congr 2
  funext w
  by_cases hw : w.start = old
  · simp [hw, h.symm]
  · simp [hw]

/-! ### The windows of a ring by their starts -/

theorem Ring.find_eq_none_iff {ring : Ring} : ring.find start = none ↔ ∀ w ∈ ring.windows, w.start ≠ start := by
  simp [Ring.find]

theorem Ring.find_of_mem {ring : Ring} {w : Window} (h : w ∈ ring.windows) : ∃ x, ring.find w.start = some x :=
  Option.ne_none_iff_exists'.1 fun hn => Ring.find_eq_none_iff.1 hn w h rfl

theorem Window.hasRoom_iff {w : Window} {k : Kind} : w.hasRoom k = true ↔ w.booked.get k < w.quota.get k := by
  simp [Window.hasRoom]

/-! ### The checks on the booking found, steps 3 to 8 -/

theorem any_badCheckDigit_iff {c : Option Text} :
    c.any (containerCheck · == .badCheckDigit) = true ↔ ∃ t ∈ c, containerCheck t = .badCheckDigit := by
  simp [Option.any_eq_true]

theorem amendCheck_of_inLane (h : b.state = .inLane) : amendCheck s r b = some .inUse := by
  simp [amendCheck, h]

theorem amendCheck_of_past (h : b.state = .admitted ∨ b.state = .noShow) : amendCheck s r b = some .wrongState := by
  rcases h with h | h <;> simp [amendCheck, h]

theorem amendCheck_of_illFormed (h : b.state = .booked) (hf : (r.applyTo b).wellFormed = false) :
    amendCheck s r b = some .badParam := by
  simp [amendCheck, h, hf]

theorem amendCheck_of_badDigit (h : b.state = .booked) (hf : (r.applyTo b).wellFormed = true)
    (hd : ∃ c ∈ r.container, containerCheck c = .badCheckDigit) : amendCheck s r b = some .badCheckDigit := by
  simp only [amendCheck, h, hf, any_badCheckDigit_iff.2 hd]
  rfl

/-- Steps 3 to 6 of R13 refuse nothing: the booking is BOOKED, and the amended record is well formed with a container
number whose check digit is not wrong. -/
structure AmendReq.PassesRecord (r : AmendReq) (b : Booking) : Prop where
  booked : b.state = .booked
  wellFormed : (r.applyTo b).wellFormed = true
  digit : ∀ c ∈ r.container, containerCheck c ≠ .badCheckDigit

theorem AmendReq.PassesRecord.any_badCheckDigit (h : r.PassesRecord b) :
    r.container.any (containerCheck · == .badCheckDigit) = false :=
  Bool.eq_false_iff.2 fun bad => by
    obtain ⟨c, hc, hbad⟩ := any_badCheckDigit_iff.1 bad
    exact h.digit c hc hbad

theorem amendCheck_of_window_unchanged (h : r.PassesRecord b) (hw : r.window = none) : amendCheck s r b = none := by
  simp [amendCheck, h.booked, h.wellFormed, h.any_badCheckDigit, hw]

theorem amendCheck_of_window_missing (h : r.PassesRecord b) (hw : r.window = some start)
    (hf : s.ring.find start = none) : amendCheck s r b = some .noSuchWindow := by
  simp [amendCheck, h.booked, h.wellFormed, h.any_badCheckDigit, hw, hf]

/-- Step 8 asks for room only in a window other than the booking's own. -/
theorem amendCheck_of_window_found (h : r.PassesRecord b) (hw : r.window = some start) {w : Window}
    (hf : s.ring.find start = some w) :
    amendCheck s r b = if b.window ≠ some start ∧ ¬ w.hasRoom b.kind = true then some .windowFull else none := by
  simp [amendCheck, h.booked, h.wellFormed, h.any_badCheckDigit, hw, hf]

/-! ### The answer -/

theorem completeAmend_of_malformed (h : r.ref.length ≠ 8) : completeAmend s r = refuse s .badParam := by
  simp [completeAmend, h]

theorem completeAmend_of_unknown (h : r.ref.length = 8) (hl : s.book.lookup r.ref = none) :
    completeAmend s r = refuse s .notFound := by
  simp [completeAmend, h, hl]

theorem completeAmend_of_refused (h : s.Finds r.ref slot b) {code : Result} (hc : amendCheck s r b = some code) :
    completeAmend s r = refuse s code := by
  simp [completeAmend, h.formed, h.looked, h.found, hc]

theorem completeAmend_of_taken (h : s.Finds r.ref slot b) (hc : amendCheck s r b = none) :
    completeAmend s r = ⟨{ s with
      book := s.book.put slot (r.applyTo b)
      ring := s.ring.moveBooked b.window (r.applyTo b).window b.kind }, .ok, []⟩ := by
  simp [completeAmend, h.formed, h.looked, h.found, hc]

/-! ### The completion -/

section
variable {e : Execution} {code : Result}

/-- A BOOK_AMEND that a check on the booking found refuses changes nothing. -/
theorem complete_amend_refused (h : s.Completing e (.amend r)) (hf : s.Finds r.ref slot b)
    (hc : amendCheck s r b = some code) : exec .indexOperationComplete s = .next (s.completed e code []) :=
  complete_of_refuse h (completeAmend_of_refused hf.engineFree hc)

/-- A BOOK_AMEND that no check refuses replaces the record and moves the booking between booked counts. -/
theorem complete_amend_taken (h : s.Completing e (.amend r)) (hf : s.Finds r.ref slot b) (hc : amendCheck s r b = none)
    {ring : Ring} (hr : s.ring.moveBooked b.window (r.applyTo b).window b.kind = ring) :
    exec .indexOperationComplete s = .next
      (({ s with book := s.book.put slot (r.applyTo b), ring := ring } : State).completed e .ok []) := by
  subst hr
  exact complete_of_answer h rfl (completeAmend_of_taken hf.engineFree hc)

/-- A BOOK_AMEND whose window is the one the booking has, or is not given, moves no booking. -/
theorem complete_amend_window_kept (h : s.Completing e (.amend r)) (hf : s.Finds r.ref slot b) (hp : r.PassesRecord b)
    (hw : r.window = none ∨ (r.window = b.window ∧ ∃ w ∈ s.ring.windows, some w.start = b.window)) :
    exec .indexOperationComplete s = .next
      (({ s with book := s.book.put slot (r.applyTo b) } : State).completed e .ok []) := by
  rcases hw with absent | ⟨same, w, hmem, own⟩
  · refine complete_amend_taken h hf (amendCheck_of_window_unchanged hp absent) ?_
    simp [AmendReq.applyTo, absent]
  · obtain ⟨x, hx⟩ := Ring.find_of_mem hmem
    refine complete_amend_taken h hf ?_ ?_
    · rw [amendCheck_of_window_found hp (same.trans own.symm) hx]
      simp [own]
    · simp [AmendReq.applyTo, same]

end

end Sys2Proof.Machine

open Sys2Proof.Machine in
/-- Settles O21: each clause is one step of R13's order. -/
theorem bookAmendReplacesEveryGivenValue : Obligations.BookAmendReplacesEveryGivenValue := by
  intro s e r slot b h
  refine ⟨fun malformed => complete_of_refuse h (completeAmend_of_malformed malformed),
    fun formed unknown => complete_of_refuse h (completeAmend_of_unknown formed unknown),
    fun formed looked found => ?_⟩
  have finds : s.Finds r.ref slot b := ⟨formed, looked, found⟩
  refine ⟨fun inLane => complete_amend_refused h finds (amendCheck_of_inLane inLane),
    fun past => complete_amend_refused h finds (amendCheck_of_past past),
    fun booked illFormed => complete_amend_refused h finds (amendCheck_of_illFormed booked illFormed),
    fun booked wellFormed =>
      ⟨fun bad => complete_amend_refused h finds (amendCheck_of_badDigit booked wellFormed bad), fun digit => ?_⟩⟩
  have passes : r.PassesRecord b := ⟨booked, wellFormed, digit⟩
  refine ⟨complete_amend_window_kept h finds passes, fun start old given own ne =>
    ⟨fun missing => ?_, fun w found => ⟨fun full => ?_, fun room => ?_⟩⟩⟩
  · exact complete_amend_refused h finds
      (amendCheck_of_window_missing passes given (Ring.find_eq_none_iff.2 missing))
  · refine complete_amend_refused h finds ?_
    rw [amendCheck_of_window_found passes given found,
      if_pos ⟨by simpa [own] using ne.symm, fun hr => Nat.not_lt.2 full (Window.hasRoom_iff.1 hr)⟩]
  · refine complete_amend_taken h finds ?_ ?_
    · rw [amendCheck_of_window_found passes given found, if_neg fun hn => hn.2 (Window.hasRoom_iff.2 room)]
    · rw [own, ← Ring.moveBooked_of_ne _ _ ne]
      simp [AmendReq.applyTo, given]
end

section
/-!
PROOFS. BOOK_CANCEL and BOOK_RETIRE (R14, R15): what each answers in every state of the booking found, what a freed
booking leaves behind, and the statement.
-/

namespace Sys2Proof.Machine

variable {s : State} {ref : Text} {slot w : Nat} {b : Booking}

/-! ### The search for the booking -/

theorem findBooking_of_malformed (h : ref.length ≠ 8) : findBooking s ref = .error .badParam := by
  simp [findBooking, h]

theorem findBooking_of_unknown (h : ref.length = 8) (hl : s.book.lookup ref = none) :
    findBooking s ref = .error .notFound := by
  simp [findBooking, h, hl]

theorem State.Finds.findBooking_eq (h : s.Finds ref slot b) : findBooking s ref = .ok (slot, b) := by
  simp [findBooking, h.formed, h.looked, h.found]

/-! ### What a freed booking leaves -/

/-- A freed BOOKED booking leaves its window's booked count (R14). -/
theorem freeBooking_of_booked (h : b.state = .booked) (hw : b.window = some w) :
    freeBooking s slot b = { s with
      book := ⟨tableDel slot s.book.records, indexDelete s.book slot, s.book.live - 1, s.book.noShow⟩
      ring := s.ring.subBooked w b.kind } := by
  simp [freeBooking, Book.remove, h, hw]

/-- A freed NO_SHOW booking leaves the NO_SHOW count (R14, R15). -/
theorem freeBooking_of_noShow (h : b.state = .noShow) :
    freeBooking s slot b = { s with
      book := ⟨tableDel slot s.book.records, indexDelete s.book slot, s.book.live - 1, s.book.noShow - 1⟩ } := by
  simp [freeBooking, Book.remove, h]

/-- A freed ADMITTED booking leaves no count but the live count (R15). -/
theorem freeBooking_of_admitted (h : b.state = .admitted) :
    freeBooking s slot b = { s with
      book := ⟨tableDel slot s.book.records, indexDelete s.book slot, s.book.live - 1, s.book.noShow⟩ } := by
  simp [freeBooking, Book.remove, h]

/-! ### The two requests in each state of the booking -/

theorem completeCancel_of_error {code : Result} (h : findBooking s ref = .error code) :
    completeCancel s ref = refuse s code := by
  simp [completeCancel, h]

theorem completeCancel_of_inLane (h : s.Finds ref slot b) (hb : b.state = .inLane) :
    completeCancel s ref = refuse s .inUse := by
  simp [completeCancel, h.findBooking_eq, hb]

theorem completeCancel_of_admitted (h : s.Finds ref slot b) (hb : b.state = .admitted) :
    completeCancel s ref = refuse s .wrongState := by
  simp [completeCancel, h.findBooking_eq, hb]

theorem completeCancel_of_free (h : s.Finds ref slot b) (hb : b.state = .booked ∨ b.state = .noShow) :
    completeCancel s ref = ⟨freeBooking s slot b, .ok, []⟩ := by
  rcases hb with hb | hb <;> simp [completeCancel, h.findBooking_eq, hb]

theorem completeRetire_of_error {code : Result} (h : findBooking s ref = .error code) :
    completeRetire s ref = refuse s code := by
  simp [completeRetire, h]

theorem completeRetire_of_pending (h : s.Finds ref slot b) (hb : b.state = .booked ∨ b.state = .inLane) :
    completeRetire s ref = refuse s .wrongState := by
  rcases hb with hb | hb <;> simp [completeRetire, h.findBooking_eq, hb]

theorem completeRetire_of_noShow (h : s.Finds ref slot b) (hb : b.state = .noShow) :
    completeRetire s ref = ⟨freeBooking s slot b, .ok, []⟩ := by
  simp [completeRetire, h.findBooking_eq, hb]

theorem completeRetire_of_windowOpen (h : s.Finds ref slot b) (hb : b.state = .admitted) (hw : b.window ≠ none) :
    completeRetire s ref = refuse s .windowOpen := by
  simp [completeRetire, h.findBooking_eq, hb, Option.isSome_iff_ne_none.2 hw]

theorem completeRetire_of_inUse (h : s.Finds ref slot b) (hb : b.state = .admitted) (hw : b.window = none)
    (hv : b.visit ≠ none) : completeRetire s ref = refuse s .inUse := by
  simp [completeRetire, h.findBooking_eq, hb, hw, Option.isSome_iff_ne_none.2 hv]

theorem completeRetire_of_finished (h : s.Finds ref slot b) (hb : b.state = .admitted) (hw : b.window = none)
    (hv : b.visit = none) : completeRetire s ref = ⟨freeBooking s slot b, .ok, []⟩ := by
  simp [completeRetire, h.findBooking_eq, hb, hw, hv]

/-! ### What the two requests share -/

/-- BOOK_RETIRE or BOOK_CANCEL of a reference. -/
def removal (retire : Bool) (ref : Text) : BookReq := if retire then .retire ref else .cancel ref

/-- Both requests refuse a reference that names no booking alike. -/
theorem removal_of_error (retire : Bool) {code : Result} (h : findBooking s ref = .error code) :
    completeBooking s (removal retire ref) = refuse s code := by
  cases retire
  case false => exact completeCancel_of_error h
  case true => exact completeRetire_of_error h

/-- Both requests free a NO_SHOW booking alike. -/
theorem removal_of_noShow (retire : Bool) (h : s.Finds ref slot b) (hb : b.state = .noShow) :
    completeBooking s (removal retire ref) = ⟨freeBooking s slot b, .ok, []⟩ := by
  cases retire
  case false => exact completeCancel_of_free h (.inr hb)
  case true => exact completeRetire_of_noShow h hb

/-- Both requests refuse an IN_LANE booking, each with its own code. -/
theorem removal_of_inLane (retire : Bool) (h : s.Finds ref slot b) (hb : b.state = .inLane) :
    completeBooking s (removal retire ref) = refuse s (if retire then .wrongState else .inUse) := by
  cases retire
  case false => exact completeCancel_of_inLane h hb
  case true => exact completeRetire_of_pending h (.inr hb)

/-- A request that frees the booking found completes in the state with the booking freed. -/
theorem complete_of_free {e : Execution} {req : BookReq} {u : State} (h : s.Completing e req)
    (engine : u.engine = s.engine)
    (answer : completeBooking s.engineFree req = ⟨freeBooking s.engineFree slot b, .ok, []⟩)
    (freed : freeBooking s.engineFree slot b = u.engineFree) :
    exec .indexOperationComplete s = .next (u.completed e .ok []) :=
  complete_of_answer h engine (by rw [answer, freed])

end Sys2Proof.Machine

open Sys2Proof.Machine in
/-- Settles O22, by the state of the booking found and, where they differ, by the request. -/
theorem cancelAndRetireFreeTheRecordSlot : Obligations.CancelAndRetireFreeTheRecordSlot := by
  intro s e ref slot b retire h
  refine ⟨fun malformed => complete_of_refuse h (removal_of_error retire (findBooking_of_malformed malformed)),
    fun formed unknown => complete_of_refuse h (removal_of_error retire (findBooking_of_unknown formed unknown)),
    fun formed looked found => ?_⟩
  have finds : s.engineFree.Finds ref slot b := State.Finds.engineFree ⟨formed, looked, found⟩
  refine ⟨fun inLane => complete_of_refuse h (removal_of_inLane retire finds inLane), ?booked, ?cancelBooked,
    fun noShow => complete_of_free h rfl (removal_of_noShow retire finds noShow) (freeBooking_of_noShow noShow),
    ?cancelAdmitted, ?windowOpen, ?inUse, ?finished⟩
  case booked =>
    rintro booked rfl
    exact complete_of_refuse h (completeRetire_of_pending finds (.inl booked))
  case cancelBooked =>
    rintro w booked rfl window
    exact complete_of_free h rfl (completeCancel_of_free finds (.inl booked)) (freeBooking_of_booked booked window)
  case cancelAdmitted =>
    rintro admitted rfl
    exact complete_of_refuse h (completeCancel_of_admitted finds admitted)
  case windowOpen =>
    rintro admitted rfl window
    exact complete_of_refuse h (completeRetire_of_windowOpen finds admitted window)
  case inUse =>
    rintro admitted rfl window visit
    exact complete_of_refuse h (completeRetire_of_inUse finds admitted window visit)
  case finished =>
    rintro admitted rfl window visit
    exact complete_of_free h rfl (completeRetire_of_finished finds admitted window visit)
      (freeBooking_of_admitted admitted)
end

section
/-!
PROOFS. The admission, the revert and the visit release of a leg's booking (R18 to R21): one equation for each case of
each update, and the statement.
-/

namespace Sys2Proof.Machine

variable {s : State} {l : Leg} {h : Handle} {k w : Nat} {r : Booking}

/-! ### The test of R18 -/

theorem Book.held_of_found {b : Book} (hl : l.slot = some k) (hf : tableFind k b.records = some r)
    (hr : r.ref = l.ref) : b.held l.slot l.ref = some (k, r) := by
  simp [Book.held, hl, hf, hr]

theorem Book.held_eq_none {b : Book}
    (hn : ∀ k r, l.slot = some k → tableFind k b.records = some r → r.ref ≠ l.ref) :
    b.held l.slot l.ref = none := by
  cases hl : l.slot with
  | none => rfl
  | some k =>
    cases hf : tableFind k b.records with
    | none => simp [Book.held, hf]
    | some r => simp [Book.held, hf, hn k r hl hf]

/-! ### Arrived counts -/

/-- The ring with the arrived count for a kind changed in the window that a booking names, where it names one. -/
def Ring.countArrived (ring : Ring) (window : Option Nat) (kind : Kind) (g : Nat → Nat) : Ring :=
  { ring with windows := ring.windows.map fun x =>
    if window = some x.start then { x with arrived := x.arrived.put kind (g (x.arrived.get kind)) } else x }

@[simp] theorem Ring.countArrived_none (ring : Ring) (kind : Kind) (g : Nat → Nat) :
    ring.countArrived none kind g = ring := by
  simp [Ring.countArrived]

theorem Ring.addArrived_eq (ring : Ring) (kind : Kind) :
    ring.addArrived w kind = ring.countArrived (some w) kind (· + 1) := by
  simp [Ring.countArrived, Ring.addArrived, Ring.modWindow, eq_comm]

theorem Ring.subArrived_eq (ring : Ring) (kind : Kind) :
    ring.subArrived w kind = ring.countArrived (some w) kind (· - 1) := by
  simp [Ring.countArrived, Ring.subArrived, Ring.modWindow, eq_comm]

/-! ### The admission (R19) -/

/-- An IN_LANE booking of the visit is ADMITTED, and counts as arrived in its window. -/
theorem admitBooking_of_inLane (hd : s.book.held l.slot l.ref = some (k, r)) (hs : r.state = .inLane)
    (hv : r.visit = some h) :
    s.admitBooking l h = { s with
      book := s.book.put k { r with state := .admitted }, ring := s.ring.countArrived r.window r.kind (· + 1) } := by
  simp only [State.admitBooking, hd, if_pos (And.intro hs hv)]
  cases r.window with
  | none => simp
  | some w => simp [Ring.addArrived_eq]

/-- A NO_SHOW booking is ADMITTED for the visit, and leaves the NO_SHOW count. -/
theorem admitBooking_of_noShow (hd : s.book.held l.slot l.ref = some (k, r)) (hs : r.state = .noShow) :
    s.admitBooking l h = { s with
      book := { s.book.put k { r with state := .admitted, visit := some h } with noShow := s.book.noShow - 1 } } := by
  simp [State.admitBooking, hd, hs]

theorem admitBooking_of_other (hd : s.book.held l.slot l.ref = some (k, r)) (hs : r.state ≠ .noShow)
    (hn : r.state ≠ .inLane ∨ r.visit ≠ some h) : s.admitBooking l h = s := by
  simp only [State.admitBooking, hd, if_neg (not_and_or.2 hn), if_neg hs]

/-! ### The revert (R20) -/

/-- A booking of the visit with a window is BOOKED again; an ADMITTED one no longer counts as arrived. -/
theorem revertBooking_of_window (hd : s.book.held l.slot l.ref = some (k, r)) (hv : r.visit = some h)
    (hs : r.state = .inLane ∨ r.state = .admitted) (hw : r.window ≠ none) :
    s.revertBooking l h = { s with
      book := s.book.put k { r with state := .booked, visit := none }
      ring := if r.state = .admitted then s.ring.countArrived r.window r.kind (· - 1) else s.ring } := by
  obtain ⟨w, hw⟩ := Option.ne_none_iff_exists'.1 hw
  simp only [State.revertBooking, hd, if_pos (And.intro hs hv), hw, Ring.subArrived_eq]

/-- A booking of the visit whose window is retired becomes a NO_SHOW booking, and counts as one. -/
theorem revertBooking_of_noWindow (hd : s.book.held l.slot l.ref = some (k, r)) (hv : r.visit = some h)
    (hs : r.state = .inLane ∨ r.state = .admitted) (hw : r.window = none) :
    s.revertBooking l h = { s with
      book := { s.book.put k { r with state := .noShow, visit := none } with noShow := s.book.noShow + 1 } } := by
  simp only [State.revertBooking, hd, if_pos (And.intro hs hv), hw]

theorem revertBooking_of_other (hd : s.book.held l.slot l.ref = some (k, r))
    (hn : r.visit ≠ some h ∨ r.state = .booked ∨ r.state = .noShow) : s.revertBooking l h = s := by
  have notOwn : ¬ ((r.state = .inLane ∨ r.state = .admitted) ∧ r.visit = some h) := by
    rintro ⟨hs, hv⟩
    rcases hn with hn | hn | hn
    · exact hn hv
    all_goals simp [hn] at hs
  simp only [State.revertBooking, hd, if_neg notOwn]

/-! ### The visit release (R21) -/

theorem releaseBooking_of_held (hd : s.book.held l.slot l.ref = some (k, r)) :
    s.releaseBooking l h =
      if r.visit = some h then { s with book := s.book.put k { r with visit := none } } else s := by
  simp only [State.releaseBooking, hd]

/-! ### A leg that does not hold its booking (R18) -/

theorem updates_of_unheld (hd : s.book.held l.slot l.ref = none) :
    s.admitBooking l h = s ∧ s.revertBooking l h = s ∧ s.releaseBooking l h = s := by
  simp only [State.admitBooking, State.revertBooking, State.releaseBooking, hd, and_self]

end Sys2Proof.Machine

open Sys2Proof.Machine in
/-- Settles O24, by the test of R18 and then by the cases of each update. -/
theorem recordUpdatesActOnTheVisitsOwnBooking : Obligations.RecordUpdatesActOnTheVisitsOwnBooking := by
  refine ⟨fun s l h unheld => updates_of_unheld (Book.held_eq_none unheld), fun s l h k r slot found ref => ?_⟩
  have held : s.book.held l.slot l.ref = some (k, r) := Book.held_of_found slot found ref
  exact ⟨admitBooking_of_inLane held, admitBooking_of_noShow held, admitBooking_of_other held,
    revertBooking_of_window held, revertBooking_of_noWindow held, revertBooking_of_other held,
    releaseBooking_of_held held⟩
end

section
/-!
PROOFS. WINDOW_PLAN (R28): its fields, one equation for each check in the rule's order, and the statement.
-/

namespace Sys2Proof.Machine

variable {s u : State} {f : ReqFrame} {rest : List ReqFrame} {r : PlanReq}

/-- A ready request whose owner's answer is known, whole (R203). -/
theorem live_takeRequest_of_serve {α : Type} {code : Byte} {dec : Dec α} {serve : α → State → Answer} {a : α}
    {result : Result} {fields : List Byte} (h : s.Ready code f rest) (hd : decodeAll dec f.fields = some a)
    (ha : serve a (s.taken rest) = ⟨u, result, fields⟩) :
    live s (takeRequest code dec serve s) = .next (u.answered f result fields) := by
  rw [live_on h.power, takeRequest_ready h hd, ha]

/-- The fields of WINDOW_PLAN decode to what they were laid out from (R219). -/
theorem decodeAll_dPlan {s0 L E G R : Nat} (h0 : s0 < 4294967296) (hL : L < 256) (hE : E < 256) (hG : G < 256)
    (hR : R < 256) : decodeAll dPlan (e4 s0 ++ e1 L ++ e1 E ++ e1 G ++ e1 R) = some ⟨s0, L, E, G, R⟩ := by
  have last : d1.run (e1 R) = some (R, []) := by simpa using run_d1 R [] hR
  apply decodeAll_of_run
  simp only [dPlan, List.append_assoc, run_bind, run_d4 _ _ h0, run_d1 _ _ hL, run_d1 _ _ hE, run_d1 _ _ hG, last,
    Option.bind_some, run_pure]

/-! ### The checks, in the order of R28 -/

theorem servePlan_of_outOfRange (h : r.length ∉ [15, 20, 30, 60] ∨ 120 < r.early ∨ 120 < r.grace ∨ 8 < r.reach) :
    servePlan r s = refuse s .badParam := by
  simp only [servePlan, planCheck, if_pos h]

section
variable (inRange : ¬ (r.length ∉ [15, 20, 30, 60] ∨ 120 < r.early ∨ 120 < r.grace ∨ 8 < r.reach))
include inRange

theorem servePlan_of_clockNotSet (clock : s.time.clockSet = false) : servePlan r s = refuse s .clockNotSet := by
  simp only [servePlan, planCheck, if_neg inRange, if_pos clock]

variable (clock : ¬ s.time.clockSet = false)
include clock

theorem servePlan_of_notEmpty (occupied : 0 < s.book.live) : servePlan r s = refuse s .notEmpty := by
  simp only [servePlan, planCheck, if_neg inRange, if_neg clock, if_pos occupied]

variable (empty : ¬ 0 < s.book.live)
include empty

theorem servePlan_of_misplaced
    (h : r.first + r.length + r.grace ≤ s.time.minute ∨ Config.maxMinute < r.first + 95 * r.length) :
    servePlan r s = refuse s .badParam := by
  simp only [servePlan, planCheck, if_neg inRange, if_neg clock, if_neg empty, if_pos h]

theorem servePlan_of_taken
    (h : ¬ (r.first + r.length + r.grace ≤ s.time.minute ∨ Config.maxMinute < r.first + 95 * r.length)) :
    servePlan r s = accept { s with ring := s.ring.plan r.first r.length r.early r.grace r.reach } [] := by
  simp only [servePlan, planCheck, if_neg inRange, if_neg clock, if_neg empty, if_neg h]

end

end Sys2Proof.Machine

open Sys2Proof.Machine in
/-- Settles O15, by the checks in R28's order. -/
theorem windowPlanLaysNinetySixWindows : Obligations.WindowPlanLaysNinetySixWindows := by
  intro s f rest s0 L E G R h h0 hL hE hG hR fields
  have decoded : decodeAll dPlan f.fields = some ⟨s0, L, E, G, R⟩ := fields ▸ decodeAll_dPlan h0 hL hE hG hR
  change live s (takeRequest 0x18#8 dPlan servePlan s) = _
  split_ifs with range clock occupied place
  · exact live_takeRequest_of_serve h decoded (servePlan_of_outOfRange range)
  · exact live_takeRequest_of_serve h decoded (servePlan_of_clockNotSet range clock)
  · exact live_takeRequest_of_serve h decoded (servePlan_of_notEmpty range clock occupied)
  · exact live_takeRequest_of_serve h decoded (servePlan_of_misplaced range clock occupied place)
  · exact live_takeRequest_of_serve h decoded (servePlan_of_taken range clock occupied place)
end

section
/-!
PROOFS. Retirement (R22, R29, R30): one retirement as the rules state it, a retirement test as a run of retirements that
ends with the oldest window not due, and WINDOW_SET_ALLOWANCES (R38).
-/

namespace Sys2Proof.Machine

variable {s : State} {w : Window} {newer : List Window}

/-! ### One retirement -/

theorem Ring.due_iff {r : Ring} {minute : Nat} : r.due minute = true ↔ r.OldestDue minute := by
  change _ ↔ ∃ w ∈ r.windows.head?, r.retireMinute w ≤ minute
  cases h : r.windows <;> simp [Ring.due, h]

/-- The ring's newest end takes the next window where its start is a gate minute (R30). -/
theorem Ring.advance_of_cons {r : Ring} {newest : Window} (hw : r.windows = w :: newer)
    (hn : r.windows.getLast? = some newest) :
    r.advance = { r with windows := newer ++ if newest.start + r.span ≤ Config.maxMinute then
      [⟨newest.start + r.span, r.defaults, ⟨0, 0, 0, 0⟩, ⟨0, 0, 0, 0⟩⟩] else [] } := by
  rw [hw] at hn
  simp only [Ring.advance, hw, hn]
  by_cases room : newest.start + r.span ≤ Config.maxMinute
  · simp only [if_pos room]
    rfl
  · simp only [if_neg room, List.append_nil]

theorem State.retireOne_of_cons {newest : Window} (hw : s.ring.windows = w :: newer)
    (hn : s.ring.windows.getLast? = some newest) : s.retireOne = s.retired w newer newest.start := by
  simp only [State.retireOne, hw, Ring.advance_of_cons hw hn, Book.sweep, ← List.countP_eq_length_filter]
  rfl

/-- The retirement of a window that is due is the retirement of the oldest one, whole (R30). -/
theorem State.retireOne_of_due {minute : Nat} (h : s.ring.OldestDue minute) :
    ∃ (w newest : Window) (newer : List Window), s.ring.windows = w :: newer
      ∧ s.ring.windows.getLast? = some newest ∧ s.retireOne = s.retired w newer newest.start := by
  obtain ⟨w, head, -⟩ := h
  obtain ⟨newer, hw⟩ := List.head?_eq_some_iff.1 head
  obtain ⟨newest, hn⟩ : ∃ newest, s.ring.windows.getLast? = some newest :=
    ⟨_, List.getLast?_eq_some_getLast (by simp [hw])⟩
  exact ⟨w, newest, newer, hw, hn, State.retireOne_of_cons hw hn⟩

/-- A retirement leaves a later window oldest, if any: starts rise along the ring, by L at its newest end too. -/
theorem Ring.Kept.start_lt_of_advance {r : Ring} (h : r.Kept) (hw : r.windows = w :: newer) {x : Window}
    (hx : x ∈ r.advance.windows.head?) : w.start < x.start := by
  have span : 0 < r.span := h.span (by simp [hw])
  cases newer with
  | nil =>
    rw [Ring.advance_of_cons hw (newest := w) (by simp [hw])] at hx
    dsimp only at hx
    split_ifs at hx
    · obtain rfl : _ = x := by simpa using hx
      simpa using span
    · simp at hx
  | cons y newer =>
    have rise : y.start = w.start + r.span := h.rising 0 w y (by simp [hw]) (by simp [hw])
    obtain ⟨newest, hn⟩ : ∃ newest, r.windows.getLast? = some newest :=
      ⟨_, List.getLast?_eq_some_getLast (by simp [hw])⟩
    obtain rfl : y = x := by simpa [Ring.advance_of_cons hw hn] using hx
    omega

/-! ### A retirement test -/

/-- Each retirement raises the oldest start. With more fuel than the oldest window's start lies below the minute, the
test ends because the oldest window is not due, and not because the fuel is used up (R29). -/
theorem retireLoop_eq_iterate {minute fuel : Nat} (kept : s.ring.Kept)
    (enough : ∀ w ∈ s.ring.windows.head?, minute < w.start + fuel) :
    ∃ k, retireLoop minute fuel s = State.retireOne^[k] s
      ∧ (∀ i < k, (State.retireOne^[i] s).ring.OldestDue minute)
      ∧ ¬ (State.retireOne^[k] s).ring.OldestDue minute := by
  induction fuel generalizing s with
  | zero =>
    refine ⟨0, rfl, by simp, ?_⟩
    rintro ⟨w, head, due⟩
    have := enough w head
    omega
  | succ fuel ih =>
    by_cases due : s.ring.OldestDue minute
    case neg => exact ⟨0, by simp [retireLoop, Ring.due_iff, due], by simp, due⟩
    obtain ⟨w, newest, newer, hw, hn, -⟩ := State.retireOne_of_due due
    have ring : s.retireOne.ring = s.ring.advance := by simp [State.retireOne, hw]
    obtain ⟨k, loop, before, after⟩ := ih (s := s.retireOne) (ring ▸ kept.advance) fun x hx => by
      have later := kept.start_lt_of_advance hw (ring ▸ hx)
      have := enough w (by simp [hw])
      omega
    refine ⟨k + 1, by simpa [retireLoop, Ring.due_iff.2 due] using loop, fun i hi => ?_, after⟩
    cases i with
    | zero => exact due
    | succ i => exact before i (Nat.lt_of_succ_lt_succ hi)

/-- A retirement test is a run of whole retirements, oldest first, that ends with the oldest window not due (R29). -/
theorem State.retireDue_eq_run (kept : s.ring.Kept) :
    ∃ (k : Nat) (run : Nat → State), s.retireDue = run k ∧ run 0 = s
      ∧ (∀ i < k, (run i).ring.OldestDue s.time.minute ∧ ∃ (w newest : Window) (newer : List Window),
          (run i).ring.windows = w :: newer ∧ (run i).ring.windows.getLast? = some newest
          ∧ run (i + 1) = (run i).retired w newer newest.start)
      ∧ ¬ (run k).ring.OldestDue s.time.minute := by
  obtain ⟨k, loop, before, after⟩ := retireLoop_eq_iterate (minute := s.time.minute) (fuel := s.time.minute + 1)
    kept fun w _ => by omega
  refine ⟨k, fun i => State.retireOne^[i] s, loop, rfl, fun i hi => ⟨before i hi, ?_⟩, after⟩
  simp only [Function.iterate_succ_apply']
  exact State.retireOne_of_due (before i hi)

/-! ### WINDOW_SET_ALLOWANCES (R38) -/

variable {a : AllowanceReq}

/-- The fields of WINDOW_SET_ALLOWANCES decode to what they were laid out from (R219). -/
theorem decodeAll_dAllowances {E G R : Option Nat} (h : ∀ q ∈ [E, G, R], ∀ n ∈ q, n < 256) :
    decodeAll dAllowances (eOpt e1 E ++ eOpt e1 G ++ eOpt e1 R) = some ⟨E, G, R⟩ := by
  have last : (dOpt d1).run (eOpt e1 R) = some (R, []) := by simpa using run_dOpt_d1 R [] (h R (by simp))
  apply decodeAll_of_run
  simp only [dAllowances, List.append_assoc, run_bind, run_dOpt_d1 _ _ (h E (by simp)),
    run_dOpt_d1 _ _ (h G (by simp)), last, Option.bind_some, run_pure]

/-- A given value is above its limit (R38). -/
def AllowanceReq.OutOfRange (a : AllowanceReq) : Prop :=
  (∃ n ∈ a.early, 120 < n) ∨ (∃ n ∈ a.grace, 120 < n) ∨ ∃ n ∈ a.reach, 8 < n

theorem AllowanceReq.outOfRange_iff :
    (a.early.any (120 < ·) || a.grace.any (120 < ·) || a.reach.any (8 < ·)) = true ↔ a.OutOfRange := by
  simp [AllowanceReq.OutOfRange, Option.any_eq_true, or_assoc]

theorem serveAllowances_of_outOfRange (h : a.OutOfRange) : serveAllowances a s = refuse s .badParam := by
  simp only [serveAllowances, if_pos (AllowanceReq.outOfRange_iff.2 h)]

theorem serveAllowances_of_kept (h : ¬ a.OutOfRange) (kept : s.ring.grace ≤ (s.ring.setAllowances a).grace) :
    serveAllowances a s = accept { s with ring := s.ring.setAllowances a } [] := by
  simp only [serveAllowances, if_neg (mt AllowanceReq.outOfRange_iff.1 h), if_neg (Nat.not_lt.2 kept)]

theorem serveAllowances_of_lowered (h : ¬ a.OutOfRange) (lowered : (s.ring.setAllowances a).grace < s.ring.grace) :
    serveAllowances a s = accept ({ s with ring := s.ring.setAllowances a } : State).retireDue [] := by
  simp only [serveAllowances, if_neg (mt AllowanceReq.outOfRange_iff.1 h), if_pos lowered]

theorem Ring.Kept.setAllowances {r : Ring} (h : r.Kept) (a : AllowanceReq) : (r.setAllowances a).Kept :=
  ⟨h.count, h.span, h.rising, h.last⟩

end Sys2Proof.Machine

open Sys2Proof.Machine in
/-- Settles O17: the values replace, and a lowered G is followed by the run of a retirement test. -/
theorem allowancesAreReplacedAndALoweredGraceRetires : Obligations.AllowancesAreReplacedAndALoweredGraceRetires := by
  intro s f rest E G R h bytes fields bad t
  have decoded : decodeAll dAllowances f.fields = some ⟨E, G, R⟩ := fields ▸ decodeAll_dAllowances bytes
  change (_ → live s (takeRequest 0x1A#8 dAllowances serveAllowances s) = _) ∧ (_ → _ → live s _ = _)
    ∧ (_ → _ → _ → ∃ k run, live s _ = _ ∧ _)
  refine ⟨fun outOfRange => live_takeRequest_of_serve h decoded (serveAllowances_of_outOfRange outOfRange),
    fun inRange kept => live_takeRequest_of_serve h decoded (serveAllowances_of_kept inRange kept),
    fun inRange lowered ring => ?_⟩
  obtain ⟨k, run, retires, start, steps, ends⟩ := State.retireDue_eq_run (s := t) (ring.setAllowances ⟨E, G, R⟩)
  refine ⟨k, run, ?_, start, steps, ends⟩
  rw [← retires]
  exact live_takeRequest_of_serve h decoded (serveAllowances_of_lowered inRange lowered)
end

section
/-!
PROOFS. TICK_SET (R215): its fields, its two answers, the pending values at the tick boundary (R213), and that a restart
and the link reset line leave the time base alone (R88, R206, R218).
-/

namespace Sys2Proof.Machine

variable {s t : State} {d ff : Option Nat}

/-! ### The request -/

/-- The fields of TICK_SET decode to what they were laid out from (R219). -/
theorem decodeAll_dTickSet (hd : ∀ n ∈ d, n < 4294967296) (hf : ∀ n ∈ ff, n < 256) :
    decodeAll dTickSet (eOpt e4 d ++ eOpt e1 ff) = some (d, ff) := by
  have last : (dOpt d1).run (eOpt e1 ff) = some (ff, []) := by simpa using run_dOpt_d1 ff [] hf
  apply decodeAll_of_run
  simp only [dTickSet, run_bind, run_dOpt_d4 _ _ hd, last, Option.bind_some, run_pure]

/-- The given values of D and F lie in their ranges (R215). -/
def TickValuesInRange (d ff : Option Nat) : Prop := (∀ n ∈ d, 1000000 ≤ n ∧ n ≤ 2000000) ∧ ∀ n ∈ ff, n ≤ 15

theorem tickValuesInRange_iff :
    (d.all (fun d => 1000000 ≤ d && d ≤ 2000000) && ff.all (· ≤ 15)) = true ↔ TickValuesInRange d ff := by
  simp [TickValuesInRange, Option.all_eq_true]

theorem serveTickSet_of_inRange (h : TickValuesInRange d ff) :
    serveTickSet (d, ff) s =
      let t : State := { s with time := { s.time with pendD := d.getD s.time.pendD, pendF := ff.getD s.time.pendF } }
      accept t (eTicks t.time) := by
  simp only [serveTickSet, if_pos (tickValuesInRange_iff.2 h)]

theorem serveTickSet_of_outOfRange (h : ¬ TickValuesInRange d ff) :
    serveTickSet (d, ff) s = refuse s .badParam := by
  simp only [serveTickSet, if_neg (mt tickValuesInRange_iff.1 h)]

/-! ### The tick boundary -/

/-- Counting a tick moves the tick phase and the gate minute only, so the pending values are still those before it. -/
theorem TimeBase.countTick_pending (b : TimeBase) : b.countTick.pendD = b.pendD ∧ b.countTick.pendF = b.pendF := by
  unfold TimeBase.countTick
  split_ifs <;> exact ⟨rfl, rfl⟩

/-- The time base at a tick boundary: the lanes' and signs' timers do not reach it. -/
theorem State.tickBoundary_time (s : State) : s.tickBoundary.time = s.time.countTick.nextTick := by
  have lanes : Internal s (forLanes (fun n t => (t.modLane n LaneUnit.tick).modSign n Sign.tick) s) :=
    .forLanes (fun n t => (Internal.modLane t n _).trans (.modSign _ n _)) s
  exact congrArg (fun b => b.countTick.nextTick) lanes.time

/-- The pending values come into force at the tick boundary (R213, R215). -/
theorem State.tickBoundary_inForce (s : State) :
    s.tickBoundary.time.d = s.time.pendD ∧ s.tickBoundary.time.f = s.time.pendF := by
  rw [s.tickBoundary_time]
  exact s.time.countTick_pending

/-! ### What leaves the time base alone -/

/-- Starting a request takes its frame and nothing of the time base. -/
theorem startable_time {code : Byte} {f : ReqFrame} (h : s.startable code = some (f, t)) : t.time = s.time := by
  unfold State.startable at h
  split at h
  case h_1 => simp at h
  case h_2 g rest queue =>
    split_ifs at h
    obtain ⟨-, rfl⟩ : g = f ∧ s.modLink (fun l => { l with requests := rest }) = t := by simpa using h
    rfl

/-- A request whose owner keeps the time base keeps it, started or not (R203). -/
theorem takeRequest_time {α : Type} {code : Byte} {dec : Dec α} {serve : α → State → Answer}
    (keeps : ∀ a t, (serve a t).state.time = t.time) : (takeRequest code dec serve s).time = s.time := by
  unfold takeRequest
  split
  case h_1 => rfl
  case h_2 f t start =>
    have taken : t.time = s.time := startable_time start
    split
    case h_1 => exact taken
    case h_2 a _ => exact (keeps a t).trans taken

theorem live_time {v : State} (h : live s t = .next v) (keeps : t.time = s.time) : v.time = s.time := by
  obtain rfl : (if s.prst then s else t) = v := by simpa [live] using h
  split_ifs
  · rfl
  · exact keeps

/-- GATE_RESTART rejects visits at the blocks, which is internal to the part (R88, R218). -/
theorem execGateRestart_time {v : State} (h : execGateRestart s = .next v) : v.time = s.time :=
  live_time h (takeRequest_time fun _ t => (Internal.restart t).time)

/-- The link reset line acts at SLK alone (R206). -/
theorem execLinkResetAssert_time {busy : Bool} {v : State} (h : execLinkResetAssert busy s = .next v) :
    v.time = s.time := by
  unfold execLinkResetAssert at h
  split_ifs at h <;> cases h <;> rfl

theorem execLinkResetRelease_time {v : State} (h : execLinkResetRelease s = .next v) : v.time = s.time := by
  cases h
  rfl

end Sys2Proof.Machine

open Sys2Proof.Machine in
/-- Settles O12: the two answers, the boundary after the taken one, and each reset by itself. -/
theorem tickSetReplacesThePendingValues : Obligations.TickSetReplacesThePendingValues := by
  constructor
  · intro s f rest d ff h hd hf fields ok t
    have decoded : decodeAll dTickSet f.fields = some (d, ff) := fields ▸ decodeAll_dTickSet hd hf
    refine ⟨fun inRange => ⟨?taken, t.tickBoundary, ?boundary, t.tickBoundary_inForce⟩, fun outOfRange => ?refused⟩
    case taken => exact live_takeRequest_of_serve h decoded (serveTickSet_of_inRange inRange)
    case boundary => exact live_on (s := t) h.power _
    case refused => exact live_takeRequest_of_serve h decoded (serveTickSet_of_outOfRange outOfRange)
  · intro c u v reset h
    simp only [List.mem_cons, List.not_mem_nil, or_false] at reset
    rcases reset with rfl | rfl | rfl | rfl
    · exact execGateRestart_time h
    · exact execLinkResetAssert_time h
    · exact execLinkResetAssert_time h
    · exact execLinkResetRelease_time h
end

section
/-!
PROOFS. What every command keeps in the queue, the time base, the Server Link, the ring and the book (O52, O54, O55): an
owner's work is seen through `Owned`, a whole command through `Follows`, and each command is one of a few forms.
-/

namespace Sys2Proof.Machine

variable {s t u : State}

/-! ### The relations -/

/-- `t` follows `s` by the work of a request's owner: it keeps the invariants, and leaves the queues, the execution and
the error count of the Server Link alone. -/
structure Owned (s t : State) : Prop where
  pending : t.pending = s.pending
  time : s.time.Kept → t.time.Kept
  requests : t.link.requests = s.link.requests
  responses : t.link.responses = s.link.responses
  exec : t.link.exec = s.link.exec
  errors : t.link.errors = s.link.errors
  changes : s.link.changes.Nodup → t.link.changes.Nodup
  ring : s.ring.Kept → t.ring.Kept
  book : s.book.Kept → t.book.Kept

/-- `t` follows `s` by a command. -/
structure Follows (s t : State) : Prop where
  pending : t.pending = s.pending
  time : s.time.Kept → t.time.Kept
  link : s.link.Kept → t.link.Kept
  ring : s.ring.Kept → t.ring.Kept
  book : s.book.Kept → t.book.Kept

theorem Internal.owned (h : Internal s t) : Owned s t where
  pending := h.pending
  time := by rw [h.time]; exact id
  requests := by rw [h.link]
  responses := by rw [h.link]
  exec := by rw [h.link]
  errors := by rw [h.link]
  changes := h.changes
  ring := h.ring
  book := h.book

theorem Owned.follows (h : Owned s t) : Follows s t where
  pending := h.pending
  time := h.time
  link k :=
    { requests := by rw [h.requests]; exact k.requests
      responses := by rw [h.responses]; exact k.responses
      errors := by rw [h.errors]; exact k.errors
      place := by rw [h.exec, h.responses]; exact k.place
      changes := h.changes k.changes }
  ring := h.ring
  book := h.book

theorem Internal.follows (h : Internal s t) : Follows s t := h.owned.follows

theorem Follows.refl (s : State) : Follows s s := ⟨rfl, id, id, id, id⟩

theorem Follows.trans (h : Follows s t) (g : Follows t u) : Follows s u :=
  ⟨g.pending.trans h.pending, g.time ∘ h.time, g.link ∘ h.link, g.ring ∘ h.ring, g.book ∘ h.book⟩

/-- A change of the Server Link alone. -/
theorem Follows.modLink {f : Link → Link} (h : s.link.Kept → (f s.link).Kept) : Follows s (s.modLink f) :=
  ⟨rfl, id, h, id, id⟩

/-- A command completes, and its state follows. -/
def Completes (s : State) (o : Host.Outcome State Fault Refusal) : Prop := ∃ t, o = .next t ∧ Follows s t

theorem Completes.next (h : Follows s t) : Completes s (.next t) := ⟨t, rfl, h⟩

theorem Completes.live (h : Follows s t) : Completes s (live s t) := by
  refine .next ?_
  split
  · exact .refl s
  · exact h

theorem Completes.internal (h : Internal s t) : Completes s (Machine.live s t) := .live h.follows

/-! ### Requests (R203, R204) -/

/-- A frame taken from the queue leaves a place for its response (R203). -/
theorem startable_spec {code : Byte} {f : ReqFrame} (h : s.startable code = some (f, t)) :
    ∃ rest, s.link.requests = f :: rest ∧ f.code = code ∧ s.link.exec = none ∧ s.link.responses.length < 16
      ∧ t = s.taken rest := by
  unfold State.startable at h
  split at h
  case h_1 => cases h
  case h_2 g rest queue =>
    split_ifs at h with ready
    obtain ⟨code, idle, place⟩ := ready
    cases h
    exact ⟨rest, queue, code, idle, place, rfl⟩

/-- The response of a request that was started has its place (R203). -/
theorem follows_of_answered {code : Byte} {f : ReqFrame} (h : s.startable code = some (f, t)) (owned : Owned t u)
    (r : Result) (fields : List Byte) : Follows s (u.respond f r fields) := by
  obtain ⟨rest, queue, -, idle, place, rfl⟩ := startable_spec h
  refine ⟨owned.pending, owned.time, fun k => ⟨?_, ?_, ?_, fun e started => ?_, owned.changes k.changes⟩, owned.ring,
    owned.book⟩
  · have := k.requests
    simp only [queue, List.length_cons] at this
    simp only [State.respond, modLink_link, owned.requests, State.taken]
    omega
  · simp only [State.respond, modLink_link, owned.responses, State.taken, List.length_append, List.length_singleton]
    omega
  · simp only [State.respond, modLink_link, owned.errors, State.taken]
    exact k.errors
  · have none : u.link.exec = none := owned.exec.trans idle
    simp [State.respond, none] at started

theorem Owned.refl (s : State) : Owned s s := ⟨rfl, id, rfl, rfl, rfl, rfl, id, id, id⟩

/-- A request keeps what its owner keeps. -/
theorem takeRequest_follows {α : Type} {code : Byte} {dec : Dec α} {serve : α → State → Answer}
    (owned : ∀ a t, Owned t (serve a t).state) : Follows s (takeRequest code dec serve s) := by
  unfold takeRequest
  split
  case h_1 => exact .refl s
  case h_2 f t start =>
    split
    case h_1 => exact follows_of_answered start (.refl t) _ _
    case h_2 a _ => exact follows_of_answered start (owned a t) _ _

theorem Completes.request {α : Type} {code : Byte} {dec : Dec α} {serve : α → State → Answer}
    (owned : ∀ a t, Owned t (serve a t).state) : Completes s (Machine.live s (takeRequest code dec serve s)) :=
  .live (takeRequest_follows owned)

/-- A request whose owner works inside the part. -/
theorem Completes.internalRequest {α : Type} {code : Byte} {dec : Dec α} {serve : α → State → Answer}
    (internal : ∀ a t, Internal t (serve a t).state) : Completes s (Machine.live s (takeRequest code dec serve s)) :=
  .request fun a t => (internal a t).owned

/-- A request in execution keeps the place of its response. -/
theorem follows_of_execution {code : Byte} {f : ReqFrame} (h : s.startable code = some (f, t))
    (time : s.time.Kept → u.time.Kept) (same : u = { t with time := u.time }) (e : Execution) :
    Follows s (u.modLink fun l => { l with exec := some e }) := by
  obtain ⟨rest, queue, -, -, place, rfl⟩ := startable_spec h
  rw [same]
  refine ⟨rfl, time, fun k => ⟨?_, k.responses, k.errors, fun _ _ _ => place, k.changes⟩, id, id⟩
  have := k.requests
  simp only [queue, List.length_cons] at this
  show rest.length ≤ 16
  omega

theorem takeBooking_follows {code : Byte} {dec : Dec BookReq} : Follows s (takeBooking code dec s) := by
  unfold takeBooking
  split
  case h_1 => exact .refl s
  case h_2 f t start =>
    split
    case h_1 => exact follows_of_answered start (.refl t) _ _
    case h_2 req _ =>
      refine follows_of_execution start ?_ rfl _
      obtain ⟨rest, -, -, -, -, rfl⟩ := startable_spec start
      exact id

theorem Completes.booking {code : Byte} {dec : Dec BookReq} : Completes s (Machine.live s (takeBooking code dec s)) :=
  .live takeBooking_follows

/-- A handle as received is refused, or names a visit the owner works on (R61). -/
theorem onVisit_internal {h : Nat × Nat} {serve : Fin 64 → Visit → Answer}
    (internal : ∀ v x, Internal s (serve v x).state) : Internal s (onVisit h s serve).state := by
  unfold onVisit
  split
  · exact .refl s
  · exact internal _ _

theorem onLane_internal {n : Nat} {serve : Lane → Answer} (internal : ∀ n, Internal s (serve n).state) :
    Internal s (onLane n s serve).state := by
  unfold onLane
  split
  · exact .refl s
  · exact internal _

/-- The end of an execution uses the place that was kept for its response (R203, R206). -/
theorem finish_follows {e : Execution} (h : Owned s t) (running : s.link.exec = some e) (r : Result)
    (fields : List Byte) : Follows s (t.finish e r fields) := by
  refine ⟨h.pending, h.time, fun k => ⟨?_, ?_, ?_, ?_, h.changes k.changes⟩, h.ring, h.book⟩
  · simp only [State.finish, modLink_link, h.requests]
    exact k.requests
  · simp only [State.finish, modLink_link, h.responses]
    split
    case isTrue => exact k.responses
    case isFalse kept =>
      have := k.place e running (by simpa using kept)
      simp only [List.length_append, List.length_singleton]
      omega
  · simp only [State.finish, modLink_link, h.errors]
    exact k.errors
  · intro _ none
    simp [State.finish] at none

/-! ### The owners' work -/

@[simp] theorem accept_state (s : State) (fields : List Byte) : (accept s fields).state = s := rfl
@[simp] theorem refuse_state (s : State) (r : Result) : (refuse s r).state = s := rfl

theorem serveLaneMode_internal (n : Lane) (m : Mode) (s : State) : Internal s (serveLaneMode n m s).state := by
  unfold serveLaneMode
  split
  · rw [accept_state]
    exact (Internal.modLane s n _).trans (.startJobs _)
  · split
    · rw [accept_state]
      exact ((Internal.modLane s n _).trans (.leaveWait _ n)).trans (.startJobs _)
    · exact .refl s
  · split
    · rw [accept_state]
      exact ((Internal.modLane s n _).trans (.leaveWait _ n)).trans (.startJobs _)
    · rw [accept_state]
      exact (((Internal.modLane s n _).trans (.stopDwell _ n)).trans (.leaveWait _ n)).trans (.startJobs _)

theorem serveLaneAbort_internal (n : Lane) (s : State) : Internal s (serveLaneAbort n s).state := by
  unfold serveLaneAbort
  split
  · exact .refl s
  · rw [accept_state]
    exact ((Internal.abortVisit s n _).trans (.retryIf _ _)).trans (.startJobs _)

theorem serveLaneReset_internal (n : Lane) (s : State) : Internal s (serveLaneReset n s).state := by
  unfold serveLaneReset
  rw [accept_state]
  exact ((((Internal.resetLane s n _).trans (.leaveWait _ n)).trans (.closeIf _ n)).trans (.retryIf _ _)).trans (.startJobs _)

theorem servePointWrite_internal (n : Lane) (r : PointReq) (s : State) : Internal s (servePointWrite n r s).state := by
  unfold servePointWrite
  split
  · split
    · dsimp only [accept_state]
      exact .modLane s n _
    · exact .refl s
  · exact .refl s

theorem serveVisitClose_internal (v : Fin 64) (x : Visit) (s : State) : Internal s (serveVisitClose v x s).state := by
  unfold serveVisitClose
  split
  · exact .refl s
  · rw [accept_state]
    exact ((Internal.closeVisit s v x).trans (.retryIf _ _)).trans (.startJobs _)

theorem serveDecide_internal (d : Decision) (v : Fin 64) (x : Visit) (s : State) :
    Internal s (serveDecide d v x s).state := by
  unfold serveDecide
  split
  · exact .refl s
  · split
    · exact .refl s
    · rw [accept_state]
      exact (Internal.decide s _ v x d).trans (.startJobs _)

theorem serveCheckSet_internal (r : Option Nat × Option Nat) (s : State) : Internal s (serveCheckSet r s).state := by
  unfold serveCheckSet
  split
  · exact .refl s
  · exact .of_eq rfl rfl rfl rfl rfl rfl

theorem serveSealSet_internal (r : Option Nat × Option Bool) (s : State) : Internal s (serveSealSet r s).state := by
  unfold serveSealSet
  split
  · exact .refl s
  · exact .of_eq rfl rfl rfl rfl rfl rfl

theorem serveMixSet_internal (r : MixReq) (s : State) : Internal s (serveMixSet r s).state := by
  unfold serveMixSet
  dsimp only
  split
  · exact .refl s
  · split
    · exact .refl s
    · exact .of_eq rfl rfl rfl rfl rfl rfl

theorem serveBlockSet_internal (b : Fin 48) (r : BlockReq) (s : State) : Internal s (serveBlockSet b r s).state := by
  unfold serveBlockSet
  split
  · exact .refl s
  · rw [accept_state]
    exact ((Internal.modBlock s b _).trans (.retryIf _ _)).trans (.startJobs _)

theorem serveBlockQuery_internal (r : Option Nat) (s : State) : Internal s (serveBlockQuery r s).state := by
  unfold serveBlockQuery
  split
  · exact .refl s
  · split <;> exact .refl s

theorem serveGroupSet_internal (g : Fin 32) (l : Option (List Nat)) (s : State) :
    Internal s (serveGroupSet g l s).state := by
  unfold serveGroupSet
  split
  · exact .refl s
  · split
    · rw [accept_state]
      refine Internal.trans ?_ ((Internal.retryIf _ _).trans (.startJobs _))
      exact .of_eq rfl rfl rfl rfl rfl rfl
    · exact .refl s

theorem serveBaySet_internal (b : Fin 4) (r : BayReq) (s : State) : Internal s (serveBaySet b r s).state := by
  unfold serveBaySet
  split
  · rw [accept_state]
    exact ((Internal.modBay s b _).trans (.retryIf _ _)).trans (.startJobs _)
  · exact .refl s

theorem serveLegDone_internal (i : Nat) (v : Fin 64) (x : Visit) (s : State) :
    Internal s (serveLegDone i v x s).state := by
  unfold serveLegDone
  split
  · exact .refl s
  · split
    · dsimp only [accept_state]
      exact .finishLeg s v i _
    · exact .refl s

theorem serveSignSet_internal (n : Lane) (r : SignReq) (s : State) : Internal s (serveSignSet n r s).state := by
  have set := Internal.setSign s n r
  unfold serveSignSet
  generalize s.setSign n r = t at set
  dsimp only [accept_state]
  split
  · exact set.trans (.modSign t n _)
  · exact set

theorem serveLaneSet_internal (n : Lane) (r : LimitsReq) (s : State) : Internal s (serveLaneSet n r s).state := by
  unfold serveLaneSet
  dsimp only [accept_state]
  exact .modLane s n _

theorem serveFlagsClear_internal (n : Lane) (mask : Nat) (s : State) :
    Internal s (serveFlagsClear n mask s).state := by
  unfold serveFlagsClear
  dsimp only [accept_state]
  exact .modLane s n _

theorem serveChangeNext_internal (s : State) : Internal s (serveChangeNext s).state := by
  unfold serveChangeNext
  split
  case h_1 => exact .refl s
  case h_2 c rest queue =>
    refine ⟨rfl, rfl, rfl, rfl, rfl, fun nodup => ?_, id, id⟩
    rw [queue] at nodup
    exact nodup.of_cons

theorem serveEnables_owned (b : Bool) (mask : Nat) (s : State) : Owned s (serveEnables b mask s).state :=
  ⟨rfl, id, rfl, rfl, rfl, rfl, id, id, id⟩

/-- D and F are taken in their ranges alone (R215). -/
theorem serveTickSet_owned (r : Option Nat × Option Nat) (s : State) : Owned s (serveTickSet r s).state := by
  unfold serveTickSet
  split
  case isFalse => exact .refl s
  case isTrue ranges =>
    obtain ⟨d, f⟩ := r
    simp only [Bool.and_eq_true] at ranges
    obtain ⟨inD, inF⟩ := ranges
    refine ⟨rfl, fun k => { k with pendD := ?_, pendF := ?_ }, rfl, rfl, rfl, rfl, id, id, id⟩
    · cases d with
      | none => exact k.pendD
      | some d =>
        show 1000000 ≤ d ∧ d ≤ 2000000
        simpa using inD
    · cases f with
      | none => exact k.pendF
      | some f =>
        show f ≤ 15
        simpa using inF

/-! ### The Window Ring's requests -/

/-- A plan that passes the checks of R28 lays a ring inside the gate minutes. -/
theorem Ring.Kept.plan (r : Ring) {s0 len e g rr : Nat} (length : 0 < len) (last : s0 + 95 * len ≤ 4294967295) :
    (r.plan s0 len e g rr).Kept where
  count := by simp [Ring.plan]
  span _ := length
  rising i a b ha hb := by
    simp only [Ring.plan, List.getElem?_map, Option.map_eq_some_iff, List.getElem?_eq_some_iff,
      List.length_range, List.getElem_range, exists_prop] at ha hb
    obtain ⟨_, ⟨-, rfl⟩, rfl⟩ := ha
    obtain ⟨_, ⟨-, rfl⟩, rfl⟩ := hb
    show s0 + (i + 1) * len = s0 + i * len + len
    rw [Nat.succ_mul]
    omega
  last w hw := by
    simp only [Ring.plan, List.mem_map, List.mem_range] at hw
    obtain ⟨i, inRing, rfl⟩ := hw
    have : i * len ≤ 95 * len := Nat.mul_le_mul_right _ (by omega)
    show s0 + i * len ≤ 4294967295
    omega

theorem planCheck_none {r : PlanReq} (h : planCheck s r = none) :
    0 < r.length ∧ r.first + 95 * r.length ≤ 4294967295 := by
  unfold planCheck at h
  split_ifs at h with ranges _ _ ends
  rw [not_or] at ranges ends
  refine ⟨?_, Nat.le_of_not_lt ends.2⟩
  have := ranges.1
  simp only [List.mem_cons, List.not_mem_nil, or_false, not_not] at this
  omega

theorem servePlan_internal (r : PlanReq) (s : State) : Internal s (servePlan r s).state := by
  unfold servePlan
  split
  case h_1 => exact .refl s
  case h_2 taken =>
    obtain ⟨length, last⟩ := planCheck_none taken
    exact .of_eq rfl rfl rfl rfl rfl rfl fun _ => .plan _ length last

theorem Window.setQuotas_start (w : Window) (q : List (Option Nat)) : (w.setQuotas q).start = w.start := by
  unfold Window.setQuotas
  split <;> rfl

theorem serveWindowSet_internal (r : Nat × List (Option Nat)) (s : State) : Internal s (serveWindowSet r s).state := by
  unfold serveWindowSet
  split
  · exact .refl s
  · split
    · exact .refl s
    · exact .of_eq rfl rfl rfl rfl rfl rfl fun k => k.modWindow _ _ fun w => w.setQuotas_start _

/-- A change of the settings leaves the entries. -/
theorem Ring.Kept.of_entries {r q : Ring} (h : r.Kept) (windows : q.windows = r.windows) (length : q.length = r.length) :
    q.Kept := by
  have span : q.span = r.span := by simp [Ring.span, length]
  exact ⟨windows ▸ h.count, by rw [windows, span]; exact h.span, by rw [windows, span]; exact h.rising,
    windows ▸ h.last⟩

theorem serveAllowances_internal (a : AllowanceReq) (s : State) : Internal s (serveAllowances a s).state := by
  unfold serveAllowances
  split
  · exact .refl s
  · have replaced : Internal s { s with ring := s.ring.setAllowances a } :=
      .of_eq rfl rfl rfl rfl rfl rfl fun k => k.of_entries rfl rfl
    exact .ite (replaced.trans (.retireDue _)) replaced

theorem serveDefaultQuota_internal (q : PerKind) (s : State) : Internal s (serveDefaultQuota q s).state := by
  unfold serveDefaultQuota
  split
  · exact .refl s
  · exact .of_eq rfl rfl rfl rfl rfl rfl fun k => k.of_entries rfl rfl

theorem serveWindowQuery_internal (start : Option Nat) (s : State) : Internal s (serveWindowQuery start s).state := by
  unfold serveWindowQuery
  split
  · split
    · exact .refl s
    · exact .of_eq rfl rfl rfl rfl rfl rfl
  · split <;> exact .refl s

/-! ### Transfers (R201 to R206) -/

theorem satSucc_le (n : Nat) : satSucc n ≤ 65535 := by
  unfold satSucc Config.countMax
  split <;> omega

theorem linkError_follows (k : LinkError) : Follows s (s.linkError k) :=
  .modLink fun kept => { kept with errors := satSucc_le _ }

theorem writeTransfer_follows (bytes : List Byte) : Follows s (s.writeTransfer bytes) := by
  unfold State.writeTransfer
  have ended : Follows s (s.modLink fun l => { l with ignoring := false, sdo := zeroBytes bytes.length }) :=
    .modLink fun kept => { kept with }
  dsimp only
  split
  · exact ended
  · split
    · exact ended.trans (linkError_follows _)
    · split
      · exact ended.trans (linkError_follows _)
      case isFalse room =>
        refine ended.trans (.modLink fun kept => { kept with requests := ?_ })
        simp only [Config.queuePlaces, modLink_link, List.length_append, List.length_singleton] at room ⊢
        omega

theorem shiftFree_follows (clocked : Nat) : Follows s (s.shiftFree clocked) :=
  ⟨rfl, id, fun kept => { kept with }, id, id⟩

theorem readTransfer_follows (clocked : Nat) : Follows s (s.readTransfer clocked) := by
  unfold State.readTransfer
  split
  · exact shiftFree_follows clocked
  · split
    case h_1 r rest _ queue =>
      refine .modLink fun kept => { kept with responses := ?_, place := fun e running counts => ?_ }
      · have := kept.responses
        rw [queue] at this
        simp only [List.length_cons] at this
        split <;> simp only [List.length_cons] <;> omega
      · have := kept.place e running counts
        rw [queue] at this
        simp only [List.length_cons] at this
        split <;> simp only [List.length_cons] <;> omega
    case h_2 => exact .modLink fun kept => { kept with }

theorem lineReset_kept (l : Link) (busy : Bool) (h : l.Kept) : (l.lineReset busy).Kept where
  requests := Nat.zero_le _
  responses := Nat.zero_le _
  errors := Nat.zero_le _
  place _ _ _ := Nat.zero_lt_succ 15
  changes := h.changes

/-! ### Time and power -/

theorem tickBoundary_follows : Follows s s.tickBoundary := by
  have lanes : Internal s (forLanes (fun n t => (t.modLane n LaneUnit.tick).modSign n Sign.tick) s) :=
    .forLanes (fun n t => (Internal.modLane t n _).trans (.modSign _ n _)) s
  refine lanes.follows.trans ⟨rfl, fun k => ?_, id, id, id⟩
  obtain ⟨fine, d, f, pendD, pendF, phase, minute⟩ := k
  unfold State.tickBoundary TimeBase.nextTick TimeBase.countTick Config.maxMinute
  dsimp only
  split_ifs <;> refine ⟨?_, pendD, pendF, pendD, pendF, ?_, ?_⟩ <;> dsimp only at * <;> omega

theorem idle_follows : Follows s s.idle := by
  unfold State.idle
  split
  · exact .refl s
  · split
    · exact tickBoundary_follows
    · exact ⟨rfl, fun k => { k with }, id, id, id⟩

theorem resetTime_kept : State.reset.time.Kept := by constructor <;> decide
theorem resetLink_kept : State.reset.link.Kept := by constructor <;> simp [State.reset, Link.reset]
theorem resetRing_kept : State.reset.ring.Kept := by constructor <;> simp [State.reset]
theorem resetBook_kept : State.reset.book.Kept := by constructor <;> simp [State.reset]

theorem poweredOn_follows : Follows s s.poweredOn :=
  ⟨rfl, fun _ => resetTime_kept, fun _ => resetLink_kept, fun _ => resetRing_kept, fun _ => resetBook_kept⟩

theorem minuteEvent_follows : Completes s (execMinuteEvent s) := by
  refine .live ?_
  split
  · have given : Follows s { s with time := { s.time with minuteDue := false } } :=
      ⟨rfl, fun k => { k with }, id, id, id⟩
    dsimp only
    split
    · exact given
    · exact given.trans (Internal.retireDue _).follows
  · exact .refl s

/-- Two bytes as received (R219). -/
theorem d2_range {bytes rest : List Byte} {n : Nat} (h : d2.run bytes = some (n, rest)) : n < 65536 := by
  rcases bytes with _ | ⟨a, _ | ⟨b, bytes⟩⟩
  · cases h
  · cases h
  · obtain ⟨rfl, -⟩ := Prod.mk.inj (Option.some.inj h)
    have := a.isLt
    have := b.isLt
    omega

/-- A minute as received fits four bytes (R219). -/
theorem decodeAll_d4_range {bytes : List Byte} {m : Nat} (h : decodeAll d4 bytes = some m) : m ≤ 4294967295 := by
  have whole : d4.run bytes = some (m, []) := by
    unfold decodeAll at h
    split at h
    · cases h
      assumption
    · cases h
  rw [show d4 = (d2 >>= fun hi => d2 >>= fun lo => pure (hi * 65536 + lo)) from rfl] at whole
  simp only [run_bind, run_pure, Option.bind_eq_some_iff] at whole
  obtain ⟨⟨hi, _⟩, high, ⟨lo, _⟩, low, sum⟩ := whole
  obtain ⟨rfl, -⟩ := Prod.mk.inj (Option.some.inj sum)
  have := d2_range high
  have := d2_range low
  omega

theorem takeTimeSet_follows : Follows s (takeTimeSet s) := by
  unfold takeTimeSet
  split
  case h_1 => exact .refl s
  case h_2 f t start =>
    split
    case h_1 => exact follows_of_answered start (.refl t) _ _
    case h_2 m decoded =>
      split
      case isTrue => exact follows_of_answered start (.refl t) _ _
      case isFalse =>
        have inRange := decodeAll_d4_range decoded
        let set : TimeBase := { t.time with minute := m, phase := 0, clockSet := true }
        have kept : t.time.Kept → set.Kept := fun k => { k with minute := inRange, phase := Nat.zero_le _ }
        dsimp only
        split
        · obtain ⟨rest, -, -, -, -, rfl⟩ := startable_spec start
          exact follows_of_execution (u := { s.taken rest with time := set }) start kept rfl _
        · exact follows_of_answered (u := { t with time := set }) start ⟨rfl, kept, rfl, rfl, rfl, rfl, id, id, id⟩ _ _

theorem catchUpStep_follows {e : Execution} (running : s.link.exec = some e) (minute retired : Nat) :
    Follows s (s.catchUpStep e minute retired) := by
  have retires := (Internal.retireOne s).owned
  unfold State.catchUpStep
  dsimp only
  split
  · split
    · refine retires.follows.trans (.modLink fun k => { k with place := fun e' again counts => ?_ })
      cases again
      exact k.place e (retires.exec.trans running) counts
    · exact finish_follows retires running _ _
  · exact finish_follows (.refl s) running _ _

theorem completeHost_follows {e : Execution} {req : BookReq} (running : s.link.booking = some (e, req)) :
    Follows s (s.completeHost e req) := by
  have inExecution : s.link.exec = some e := by
    unfold Link.booking at running
    split at running
    · split at running <;> cases running
      assumption
    · cases running
  exact (finish_follows ((Internal.engineFree s).trans (.completeBooking _ req)).owned inExecution _ _).trans
    (Internal.grant _).follows

/-! ### Every command -/

theorem execLoopEvent_completes (n : Lane) (p : Loop) (level : Bool) : Completes s (execLoopEvent n p level s) := by
  refine .next ?_
  split
  · exact .refl s
  · split
    · exact (Internal.setLoop s n p level).follows
    · exact (((Internal.setLoop s n p level).trans (.takeLoop _ n p level)).trans (.startJobs _)).follows

theorem execLinkResetAssert_completes (busy : Bool) : Completes s (execLinkResetAssert busy s) := by
  refine .next ?_
  split
  · exact ⟨rfl, id, id, id, id⟩
  · exact ⟨rfl, id, lineReset_kept _ busy, id, id⟩

theorem execUnknownRequest_completes : Completes s (execUnknownRequest s) := by
  refine .live ?_
  split
  · exact .refl s
  · split
    · exact .refl s
    · split
      case h_1 => exact .refl s
      case h_2 f t start => exact follows_of_answered start (.refl t) _ _

theorem execIndexOperationComplete_completes : Completes s (execIndexOperationComplete s) := by
  refine .live ?_
  split
  case h_1 running => exact completeHost_follows running
  case h_2 => exact .refl s

theorem execCatchUpRetirement_completes : Completes s (execCatchUpRetirement s) := by
  refine .live ?_
  split
  case h_1 e running =>
    split
    · exact catchUpStep_follows running _ _
    · exact .refl s
  case h_2 => exact .refl s

theorem execIdentificationComplete_completes : Completes s (execIdentificationComplete s) := by
  refine .internal ?_
  split
  · exact (((Internal.engineFree s).trans (.identify _ _)).trans (.grant _)).trans (.startJobs _)
  · exact .refl s
  · exact .refl s

theorem execGradingCompletion_completes : Completes s (execGradingCompletion s) := by
  refine .internal ?_
  split
  · exact .gradingCompletes s _ _
  · exact .refl s

theorem execSignReply_completes (n : Lane) (chars : List RxChar) : Completes s (execSignReply n chars s) := by
  refine .internal ?_
  split
  · exact (Internal.takeReply s n _).trans (.startJobs _)
  · exact .refl s

theorem execRefreshEvent_completes (n : Lane) : Completes s (execRefreshEvent n s) :=
  .internal (.ite ((Internal.modLane s n _).trans (.refreshSign _ n)) (.refl s))

theorem execReplyTimerExpiry_completes (n : Lane) : Completes s (execReplyTimerExpiry n s) := by
  refine .internal ?_
  split
  · split
    · exact (Internal.failJob s n _).trans (.startJobs _)
    · exact .refl s
    · exact .refl s
  · exact .refl s

theorem execClearLimitExpiry_completes (n : Lane) : Completes s (execClearLimitExpiry n s) :=
  .internal (.ite (((Internal.takeExpiry s n).trans (.modLane _ n _)).trans (.join _ _)) (.refl s))

/-- An expiry that is due at a visit, or is not (R74, R75, R157, R175). -/
theorem expiry_internal {o : Option (Fin 64 × Visit)} {f : Fin 64 → Visit → State}
    (internal : ∀ v x, Internal s (f v x)) :
    Internal s (match o with
      | some (v, x) => (f v x).startJobs
      | none => s) := by
  split
  · exact (internal _ _).trans (.startJobs _)
  · exact .refl s

/-- Every command completes, and keeps the time base, the link, the ring and the book. -/
theorem exec_completes (c : Instr) (s : State) : Completes s (exec c s) := by
  cases c with
  | requestFrameArrival bytes => exact .live (writeTransfer_follows bytes)
  | readTransfer clocked => exact .live (readTransfer_follows clocked)
  | transferOperationError op clocked =>
    refine .live (Follows.trans ?_ (shiftFree_follows clocked))
    split
    · exact .refl s
    · exact linkError_follows _
  | linkResetAssert busy => exact execLinkResetAssert_completes busy
  | linkResetRelease => exact .next ⟨rfl, id, id, id, id⟩
  | prstAssert => exact .next ⟨rfl, id, id, id, id⟩
  | powerOn => exact .next poweredOn_follows
  | tickEvent => exact .live tickBoundary_follows
  | minuteEvent => exact minuteEvent_follows
  | unknownRequest => exact execUnknownRequest_completes
  | status => exact .internalRequest fun _ t => .refl t
  | changeNext => exact .internalRequest fun _ t => serveChangeNext_internal t
  | attnEnableSet => exact .request fun mask t => serveEnables_owned true mask t
  | attnEnableClear => exact .request fun mask t => serveEnables_owned false mask t
  | gateRestart =>
    refine .internalRequest fun _ t => ?_
    rw [accept_state]
    exact .restart t
  | timeSet => exact .live takeTimeSet_follows
  | tickSet => exact .request serveTickSet_owned
  | bookCreate | bookAmend | bookCancel | bookRetire | bookQuery | bookScan => exact .booking
  | windowPlan => exact .internalRequest servePlan_internal
  | windowSet => exact .internalRequest serveWindowSet_internal
  | windowSetAllowances => exact .internalRequest serveAllowances_internal
  | defaultQuota => exact .internalRequest serveDefaultQuota_internal
  | windowQuery => exact .internalRequest serveWindowQuery_internal
  | laneMode => exact .internalRequest fun r t => onLane_internal fun n => serveLaneMode_internal n r.2 t
  | laneSet => exact .internalRequest fun r t => onLane_internal fun n => serveLaneSet_internal n r.2 t
  | laneAbort => exact .internalRequest fun r t => onLane_internal fun n => serveLaneAbort_internal n t
  | laneReset => exact .internalRequest fun r t => onLane_internal fun n => serveLaneReset_internal n t
  | pointWrite => exact .internalRequest fun r t => onLane_internal fun n => servePointWrite_internal n r t
  | pointRead => exact .internalRequest fun r t => onLane_internal fun n => .refl t
  | laneFlagsClear => exact .internalRequest fun r t => onLane_internal fun n => serveFlagsClear_internal n r.2 t
  | visitQuery => exact .internalRequest fun h t => onVisit_internal fun _ _ => .refl t
  | visitClose => exact .internalRequest fun h t => onVisit_internal fun v x => serveVisitClose_internal v x t
  | visitDecide => exact .internalRequest fun r t => onVisit_internal fun v x => serveDecide_internal r.2 v x t
  | checkSet => exact .internalRequest serveCheckSet_internal
  | sealSet => exact .internalRequest serveSealSet_internal
  | mixSet => exact .internalRequest serveMixSet_internal
  | graderStatus =>
    refine .internalRequest fun clear t => ?_
    rw [accept_state]
    exact .ite (.clearCounts t) (.refl t)
  | blockSet =>
    refine .internalRequest fun r t => ?_
    split
    · exact serveBlockSet_internal _ r.2 t
    · exact .refl t
  | blockQuery => exact .internalRequest serveBlockQuery_internal
  | groupSet =>
    refine .internalRequest fun r t => ?_
    split
    · exact serveGroupSet_internal _ r.2 t
    · exact .refl t
  | baySet =>
    refine .internalRequest fun r t => ?_
    split
    · exact serveBaySet_internal _ r.2 t
    · exact .refl t
  | legDone => exact .internalRequest fun r t => onVisit_internal fun v x => serveLegDone_internal r.2 v x t
  | signSet => exact .internalRequest fun r t => onLane_internal fun n => serveSignSet_internal n r.2 t
  | indexEngineGrant => exact .internal (.grant s)
  | indexOperationComplete => exact execIndexOperationComplete_completes
  | identificationComplete => exact execIdentificationComplete_completes
  | catchUpRetirement => exact execCatchUpRetirement_completes
  | loopEvent n p level => exact execLoopEvent_completes n p level
  | laneFrameArrival n chars => exact .internal (.frameArrives s n chars)
  | laneFrameTake n => exact .internal (.takeFrame s n)
  | approachLimitExpiry n => exact .internal (expiry_internal fun v _ => .approachExpires s n v)
  | settleExpiry n => exact .internal (expiry_internal fun v x => .settleExpires s n v x)
  | cardLimitExpiry n => exact .internal (expiry_internal fun v _ => .cardExpires s n v)
  | holdTimeout n => exact .internal (expiry_internal fun v x => .holdExpires s n v x)
  | yardWaitLimitExpiry n => exact .internal (expiry_internal fun v _ => .yardWaitExpires s n v)
  | clearLimitExpiry n => exact execClearLimitExpiry_completes n
  | refreshEvent n => exact execRefreshEvent_completes n
  | replyTimerExpiry n => exact execReplyTimerExpiry_completes n
  | signReply n chars => exact execSignReply_completes n chars
  | gradingEngineTake => exact .internal (.gradingTake s)
  | gradingCompletion => exact execGradingCompletion_completes
  | frameCutShort n => exact .internal (.setFlag s n _)

/-- A step keeps the time base, the link, the ring and the book, whether it runs a command or passes a period. -/
theorem step_keeps (h : step s = .next t) :
    (s.time.Kept → t.time.Kept) ∧ (s.link.Kept → t.link.Kept) ∧ (s.ring.Kept → t.ring.Kept)
      ∧ (s.book.Kept → t.book.Kept) := by
  unfold step at h
  split at h
  case h_1 =>
    obtain rfl := Host.Outcome.next.inj h
    exact ⟨idle_follows.time, idle_follows.link, idle_follows.ring, idle_follows.book⟩
  case h_2 c rest _ =>
    obtain ⟨u, done, follows⟩ := exec_completes c { s with pending := rest }
    obtain rfl := Host.Outcome.next.inj (done.symm.trans h)
    exact ⟨follows.time, follows.link, follows.ring, follows.book⟩

end Sys2Proof.Machine

open Sys2Proof.Machine in
/-- Settles O54. -/
theorem stepKeepsTheTimeBaseTheLinkAndTheRing : Obligations.StepKeepsTheTimeBaseTheLinkAndTheRing := by
  intro s t h
  obtain ⟨time, link, ring, -⟩ := step_keeps h
  exact ⟨time, link, ring⟩

open Sys2Proof.Machine in
/-- Settles O55. -/
theorem stepKeepsTheBook : Obligations.StepKeepsTheBook := by
  intro s t h
  obtain ⟨-, -, -, book⟩ := step_keeps h
  exact book

open Sys2Proof.Machine in
/-- Settles O52: no command stops or is refused. -/
theorem everyCommandCompletesAndLeavesTheQueue : Obligations.EveryCommandCompletesAndLeavesTheQueue := by
  intro c s
  obtain ⟨t, done, follows⟩ := exec_completes c s
  exact ⟨t, done, follows.pending⟩
end

section
/-!
PROOFS. The step itself (O1, O2), PRST and power-on (R217), the transfers of the server link (R201, R202, R205, R206).
-/

namespace Sys2Proof.Machine

variable {s : State}

/-! ### The step -/

theorem step_cons {c : Instr} {rest : List Instr} (h : s.pending = c :: rest) :
    step s = exec c { s with pending := rest } := by
  simp only [step, h]

theorem step_nil (h : s.pending = []) : step s = .next s.idle := by
  simp only [step, h]

theorem TimeBase.tickLength_eq (t : TimeBase) : t.tickLength = t.d + if t.fine < t.f then 1 else 0 := by
  unfold TimeBase.tickLength
  split <;> rfl

theorem State.idle_of_prst (h : s.prst = true) : s.idle = s := by simp [State.idle, h]

/-- A period that is not the last of its tick is counted (R213). -/
theorem State.idle_of_inTick (h : s.prst = false) (more : s.time.refCount + 1 < s.time.tickLength) :
    s.idle = { s with time := { s.time with refCount := s.time.refCount + 1 } } := by
  simp [State.idle, h, Nat.not_le.2 more]

/-- The last period of a tick is the tick's boundary (R213). -/
theorem State.idle_of_boundary (h : s.prst = false) (last : s.time.tickLength ≤ s.time.refCount + 1) :
    s.idle = s.tickBoundary := by
  simp [State.idle, h, last]

/-! ### PRST and power-on (R217) -/

/-- Every command but the levels of input lines is taken with power alone. -/
theorem exec_of_prst (h : s.prst = true) {c : Instr} (notPin : isPinLevel c = false) : exec c s = .next s := by
  cases c <;> first | exact live_off h _ | cases notPin

theorem Loops.get_put_same (l : Loops) (p : Loop) (b : Bool) : (l.put p b).get p = b := by cases p <;> rfl

theorem Loops.get_put_other (l : Loops) {p q : Loop} (b : Bool) (h : q ≠ p) : (l.put p b).get q = l.get q := by
  cases p <;> cases q <;> first | rfl | exact absurd rfl h

theorem setLoop_get_same (n : Lane) (p : Loop) (b : Bool) : (s.setLoop n p b).loops[n].get p = b := by
  simp [State.setLoop, Loops.get_put_same]

theorem setLoop_get_other {n m : Lane} {p q : Loop} (b : Bool) (h : m ≠ n ∨ q ≠ p) :
    (s.setLoop n p b).loops[m].get q = s.loops[m].get q := by
  by_cases same : m = n
  · subst same
    simp [State.setLoop, Loops.get_put_other _ _ (h.resolve_left (absurd rfl))]
  · simp [State.setLoop, Fin.val_inj, Ne.symm same]

/-- While PRST is held a loop line takes its level and nothing else. -/
theorem loopEvent_of_prst (h : s.prst = true) (n : Lane) (p : Loop) (b : Bool) :
    exec (.loopEvent n p b) s = .next (if s.loops[n].get p = b then s else s.setLoop n p b) := by
  simp only [exec, execLoopEvent, h, if_true]

/-- The output lines of points 3 to 6 are undriven while PRST is held. -/
theorem lineLevel_of_prst (h : s.prst = true) (n : Lane) {p : Fin 7} (output : 3 ≤ p.val) :
    s.lineLevel n p = false := by
  simp [State.lineLevel, Nat.not_lt.2 output, h]

@[simp] theorem poweredOn_lane (s : State) (n : Lane) : s.poweredOn.lane n = .reset := by
  simp [State.lane, State.poweredOn, State.reset]

@[simp] theorem poweredOn_sign (s : State) (n : Lane) : s.poweredOn.sign n = .reset n := by
  simp [State.sign, State.poweredOn, State.reset]

@[simp] theorem poweredOn_visit (s : State) (v : Fin 64) : s.poweredOn.visits[v] = ⟨0, none⟩ := by
  simp [State.poweredOn, State.reset]

/-- At power-on a lane is IDLE in MANUAL (R58, R65). -/
theorem poweredOn_laneState (s : State) (n : Lane) : s.poweredOn.laneState n = .idle := by
  simp [State.laneState, LaneUnit.reset]

theorem poweredOn_lineLevel (s : State) (n : Lane) {p : Fin 7} (output : 3 ≤ p.val) :
    s.poweredOn.lineLevel n p = false := by
  have point : (LaneUnit.reset.points[p]) = ⟨false, false⟩ := by simp [LaneUnit.reset]
  simp [State.lineLevel, Nat.not_lt.2 output, point]
  simp [State.poweredOn, State.reset, LaneUnit.reset]

/-- At power-on every sign is about to show STAFFED (R185): what it shows does not depend on what the outside keeps. -/
theorem poweredOn_content (s : State) (n : Lane) : content s.poweredOn n = staffedLines n := by
  have staffed : ∀ n, content State.reset n = staffedLines n := by decide
  exact staffed n

/-! ### The invariants right after power-on (O53) -/

theorem reset_visit (v : Fin 64) : State.reset.visit v = none := by
  simp [State.visit, State.reset]

theorem reset_resident (n : Lane) : (State.reset.lane n).resident = none := by
  simp [State.lane, State.reset, LaneUnit.reset]

theorem reset_named (h : Handle) : State.reset.named h = none := by
  simp [State.named, reset_visit]

theorem reset_indexed : State.reset.book.Indexed where
  rising := List.Pairwise.nil
  entries _ _ h := by cases h
  once _ _ _ h := by cases h
  found _ _ h := by cases h

theorem reset_seated : State.reset.Seated := by
  intro n v resident
  rw [reset_resident] at resident
  cases resident

theorem reset_counted : State.reset.Counted where
  inRing _ h := by cases h
  booked _ h := by cases h
  noShow _ h := by cases h
  counts _ h := by cases h

theorem reset_places (b : Fin 4) : State.reset.yard.bays[b].places = [] := by
  simp [State.reset, Yard.reset]

theorem reset_yardKept : State.reset.YardKept where
  housed v x h := by rw [reset_visit] at h; cases h
  waits n h := by cases h
  follows v x h := by rw [reset_visit] at h; cases h
  unplaced v x h := by rw [reset_visit] at h; cases h
  reserved b := by
    have none : State.reset.yard.blocks[b].reserved = 0 := by simp [State.reset, Yard.reset]
    rw [none]
    simp [reset_visit]
  places b p := by
    rw [reset_places]
    simp [reset_named]
  bays b := by
    rw [reset_places]
    simp
  queue := by simp [State.reset, Yard.reset]

/-- No sign is idle: each sends its first job (R217). -/
theorem reset_signsKept : State.reset.SignsKept where
  mirrors := by decide
  quiet n idle := by
    have sending : (State.reset.sign n).job ≠ .idle := by simp [State.sign, State.reset, Sign.reset]
    exact absurd idle sending

/-! ### The transfers (R201, R202, R205, R206) -/

theorem satSucc_eq (n : Nat) : satSucc n = min 65535 (n + 1) := by
  unfold satSucc Config.countMax
  split <;> omega

theorem length_freeBytes (k n : Nat) : (Config.freeBytes k n).length = n := by
  simp [Config.freeBytes]

/-- A READ shifts out the frame, then 00h (R205). -/
theorem shiftOut_eq (n : Nat) (frame : List Byte) :
    shiftOut n frame = (frame ++ List.replicate n 0x00#8).take n := by
  simp [shiftOut, zeroBytes, List.take_append, List.take_replicate]

/-- A WRITE that LRST makes the part ignore (R206). -/
theorem writeTransfer_ignored (h : (s.lrst || s.link.ignoring) = true) (bytes : List Byte) :
    s.writeTransfer bytes =
      { s with link := { s.link with ignoring := false, sdo := List.replicate bytes.length 0x00#8 } } := by
  simp only [State.writeTransfer, h, if_true]
  rfl

theorem readTransfer_ignored (h : s.link.ignoring = true) (n : Nat) : s.readTransfer n = s.shiftFree n := by
  simp only [State.readTransfer, h, if_true]

theorem readTransfer_head (h : s.link.ignoring = false) (released : s.lrst = false) {r : Response}
    {rest : List Response} (queue : s.link.responses = r :: rest) (n : Nat) :
    s.readTransfer n = { s with link := { s.link with
      sdo := shiftOut n r.bytes, responses := if r.bytes.length ≤ n then rest else r :: rest } } := by
  unfold State.readTransfer
  rw [if_neg (by simp [h])]
  split
  case h_1 r' rest' _ queue' =>
    obtain ⟨rfl, rfl⟩ := List.cons.inj (queue.symm.trans queue')
    rfl
  case h_2 absent => exact absurd queue (absent r rest released)

theorem readTransfer_empty (h : s.link.ignoring = false) (none : s.lrst = true ∨ s.link.responses = []) (n : Nat) :
    s.readTransfer n = { s with link := { s.link with sdo := List.replicate n 0x00#8 } } := by
  unfold State.readTransfer
  rw [if_neg (by simp [h])]
  split
  case h_1 r rest released queue =>
    rcases none with asserted | empty
    · rw [asserted] at released; cases released
    · rw [empty] at queue; cases queue
  case h_2 => rfl

theorem rsp_iff (h : s.prst = false) : s.rsp = true ↔ s.link.responses ≠ [] := by
  simp [State.rsp, h]

theorem rdy_of_lrst (h : s.lrst = true) : s.rdy = false := by simp [State.rdy, h]

/-- A transfer with an unknown operation byte, counted (R202). -/
theorem operationError_counted (power : s.prst = false) (h : (s.lrst || s.link.ignoring) = false) (op : Byte) (n : Nat) :
    exec (.transferOperationError op n) s = .next { s with
      link := { s.link with
        ignoring := false, errors := min 65535 (s.link.errors + 1), errorKind := .operation
        sdo := Config.freeBytes s.free n }
      free := s.free + n } := by
  simp only [exec, execTransferOperationError, live_on power, h, Bool.false_eq_true, if_false, ← satSucc_eq]
  rfl

theorem operationError_ignored (power : s.prst = false) (h : (s.lrst || s.link.ignoring) = true) (op : Byte) (n : Nat) :
    exec (.transferOperationError op n) s = .next { s with
      link := { s.link with ignoring := false, sdo := Config.freeBytes s.free n }, free := s.free + n } := by
  simp only [exec, execTransferOperationError, live_on power, h, if_true]
  rfl

/-! ### Request frames (R202, R219) -/

/-- A WRITE that is judged (R202). `ended` is the link at the transfer's end. -/
theorem writeTransfer_judged (h : (s.lrst || s.link.ignoring) = false) (bytes : List Byte) :
    s.writeTransfer bytes =
      let ended : Link := { s.link with ignoring := false, sdo := List.replicate bytes.length 0x00#8 }
      match judgeRequest bytes with
      | .error k => { s with link := { ended with errors := satSucc s.link.errors, errorKind := k } }
      | .ok f =>
        if 16 ≤ s.link.requests.length then
          { s with link := { ended with errors := satSucc s.link.errors, errorKind := .full } }
        else { s with link := { ended with requests := s.link.requests ++ [f] } } := by
  simp only [State.writeTransfer, h, Bool.false_eq_true, if_false]
  cases judgeRequest bytes with
  | error k => rfl
  | ok f =>
    by_cases full : 16 ≤ s.link.requests.length
    · exact (if_pos full).trans (if_pos full).symm
    · exact (if_neg full).trans (if_neg full).symm

/-- The length field of a list of bytes, read byte by byte. A list without two bytes is too short for any length. -/
theorem lengthField_eq (bytes : List Byte) (h : 2 ≤ bytes.length) :
    lengthField bytes = (bytes.getD 0 0).toNat * 256 + (bytes.getD 1 0).toNat := by
  match bytes, h with
  | a :: b :: rest, _ => rfl

/-- A frame of the length that its field gives has its code and its tag (R202, R219). -/
theorem requestOf_eq {bytes : List Byte} {n : Nat} (len : bytes.length = n + 4) (low : 3 ≤ n) :
    requestOf ((bytes.take (n + 2)).drop 2) =
      ⟨bytes.getD 2 0, bytes.getD 3 0 ++ bytes.getD 4 0, (bytes.take (n + 2)).drop 5⟩ := by
  obtain ⟨m, rfl⟩ : ∃ m, n = m + 3 := ⟨n - 3, by omega⟩
  match bytes, len with
  | a :: b :: c :: d :: e :: rest, _ => rfl

/-! The steps of R202, with `n` for the length field. -/

section
variable {bytes : List Byte} {n : Nat} (field : lengthField bytes = n)
include field

theorem judgeRequest_of_misframed (h : bytes.length ≠ n + 4 ∨ n < 3 ∨ 1020 < n) :
    judgeRequest bytes = .error .frame := by
  subst field
  simp only [judgeRequest, if_pos h]

variable (framed : ¬ (bytes.length ≠ n + 4 ∨ n < 3 ∨ 1020 < n))
include framed

theorem judgeRequest_of_unchecked (h : checkBytes (bytes.take (n + 2)) ≠ bytes.drop (n + 2)) :
    judgeRequest bytes = .error .check := by
  subst field
  simp only [judgeRequest, if_neg framed, if_pos h]

theorem judgeRequest_of_sound (h : checkBytes (bytes.take (n + 2)) = bytes.drop (n + 2)) :
    judgeRequest bytes =
      .ok ⟨bytes.getD 2 0, bytes.getD 3 0 ++ bytes.getD 4 0, (bytes.take (n + 2)).drop 5⟩ := by
  have range := not_or.1 framed
  rw [← requestOf_eq (not_not.1 range.1) (by omega)]
  subst field
  simp only [judgeRequest, if_neg framed, if_neg (not_not.2 h)]

end

end Sys2Proof.Machine

open Sys2Proof Sys2Proof.Machine in
/-- Settles O1. -/
theorem stepRunsTheFrontCommand : Obligations.StepRunsTheFrontCommand := fun _ _ _ front => step_cons front

open Sys2Proof Sys2Proof.Machine in
/-- Settles O2: the three cases of an idle period. -/
theorem emptyQueuePassesOneReferencePeriod : Obligations.EmptyQueuePassesOneReferencePeriod := by
  intro s empty
  rw [step_nil empty, ← s.time.tickLength_eq]
  refine ⟨fun held => ?_, fun power more => ?_, fun power last => ?_⟩
  · rw [State.idle_of_prst held]
  · rw [State.idle_of_inTick power more]
  · rw [State.idle_of_boundary power last]
    exact (live_on power _).symm

open Sys2Proof Sys2Proof.Machine in
/-- Settles O53. -/
theorem resetHasTheInvariants : Obligations.ResetHasTheInvariants :=
  ⟨resetTime_kept, resetLink_kept, resetRing_kept, resetBook_kept, reset_indexed, reset_seated, reset_counted,
    reset_yardKept, reset_signsKept⟩

open Sys2Proof Sys2Proof.Machine in
/-- Settles O3. -/
theorem prstHoldsThePartIdleAndPowerOnRestoresIt : Obligations.PrstHoldsThePartIdleAndPowerOnRestoresIt := by
  refine ⟨⟨fun s held => ⟨fun c notPin => exec_of_prst held notPin, fun n p b => ?loop, fun b => ?_, rfl⟩,
    fun s => ⟨{ s with prst := true }, rfl, rfl, ?_, ?_, ?_, fun n p output => lineLevel_of_prst rfl n output⟩⟩,
    fun s => ⟨s.poweredOn, rfl, rfl, rfl, rfl, rfl, rfl, ?link, ?time, ?book, ?ring, fun n => ?lane,
      ⟨rfl, rfl, fun v => by rw [poweredOn_visit]; exact ⟨rfl, rfl⟩⟩, rfl, ?grader, ?yard, fun n => ?sign⟩⟩
  case loop =>
    rw [loopEvent_of_prst held]
    refine ⟨_, rfl, ?_⟩
    split
    case isTrue same => exact ⟨rfl, same, fun _ _ _ => rfl⟩
    case isFalse => exact ⟨rfl, setLoop_get_same n p b, fun _ _ other => setLoop_get_other b other⟩
  case link => simp [State.poweredOn, State.reset, Link.reset, State.attn, State.attention, State.rdy, Config.queuePlaces]
  case time => simp [State.poweredOn, State.reset, TimeBase.reset]
  case book => simp [State.poweredOn, State.reset]
  case ring => simp [State.poweredOn, State.reset, PerKind.all]
  case lane =>
    have lane := poweredOn_lane s n
    refine ⟨?_, poweredOn_laneState s n, ?_, ?_, ?_, ?_, ?_, ?_, ?_, ?_, ?_,
      fun p => ⟨?_, fun output => poweredOn_lineLevel s n output⟩⟩ <;>
      simp [lane, LaneUnit.reset, Limits.default, Dwell.stopped]
  case grader => simp [State.poweredOn, State.reset, Params.default]
  case yard => simp [State.poweredOn, State.reset, Yard.reset]
  case sign =>
    have sign := poweredOn_sign s n
    refine ⟨?_, ?_, ?_, ?_, ?_, ?_, ⟨⟨staffedLines n, 1, 1, 0, none, false⟩, ?_, (poweredOn_content s n).symm, rfl, rfl⟩,
      ?_⟩ <;> simp [sign, Sign.reset, Sign.blank, Limits.default]
  · simp [exec, execLinkResetAssert, held]
  · simp [State.rdy]
  · simp [State.rsp]
  · simp [State.attn]

open Sys2Proof Sys2Proof.Machine in
/-- Settles O6. -/
theorem readTransferShiftsOutTheOldestResponse : Obligations.ReadTransferShiftsOutTheOldestResponse := by
  refine ⟨fun s n power taken => ⟨fun r rest released queue => ?_, fun none => ?_⟩, fun s n power ignored =>
    ⟨Config.freeBytes s.free n, length_freeBytes _ _, ?_⟩, fun s power => rsp_iff power⟩
  all_goals change live s (s.readTransfer n) = _
  · rw [live_on power, readTransfer_head taken released queue, shiftOut_eq]
  · rw [live_on power, readTransfer_empty taken none]
  · rw [live_on power, readTransfer_ignored ignored]
    rfl

open Sys2Proof Sys2Proof.Machine in
/-- Settles O4. -/
theorem transfersAreJudgedAndResetByTheirRules : Obligations.TransfersAreJudgedAndResetByTheirRules := by
  refine ⟨fun s bytes power released taken => ?judged, ⟨fun s busy power => ⟨fun released => ?assert,
    fun asserted => ⟨rdy_of_lrst asserted, fun bytes => ?held⟩, rfl⟩,
    fun s op n wf power released taken => ⟨Config.freeBytes s.free n, length_freeBytes _ _, ?counted⟩⟩,
    fun s power ignored bytes => ?spans,
    fun s op n wf power ignored => ⟨Config.freeBytes s.free n, length_freeBytes _ _, ?uncounted⟩⟩
  case judged =>
    intro len ended error
    have ends : ({ s.link with ignoring := false, sdo := List.replicate bytes.length 0x00#8 } : Link) = ended := by
      rw [← taken]
    change live s (s.writeTransfer bytes) = _
    rw [live_on power, writeTransfer_judged (by simp [released, taken]), satSucc_eq, ends]
    by_cases short : bytes.length < 2
    · have field : lengthField bytes = 0 := by
        match bytes, short with
        | [], _ => rfl
        | [_], _ => rfl
      rw [judgeRequest_of_misframed field (.inl (by omega)), if_pos (.inl (by omega))]
    · have field : lengthField bytes = len := lengthField_eq bytes (by omega)
      by_cases misframed : bytes.length ≠ len + 4 ∨ len < 3 ∨ 1020 < len
      · rw [judgeRequest_of_misframed field misframed, if_pos misframed]
      rw [if_neg misframed]
      by_cases sound : checkBytes (bytes.take (len + 2)) = bytes.drop (len + 2)
      · rw [judgeRequest_of_sound field misframed sound, if_neg (not_not.2 sound)]
        exact apply_ite Host.Outcome.next _ _ _
      · rw [judgeRequest_of_unchecked field misframed sound, if_pos sound]
  case assert => simp [exec, execLinkResetAssert, power, released, State.modLink, Link.lineReset]
  case held =>
    change live s (s.writeTransfer bytes) = _
    rw [live_on power, writeTransfer_ignored (by simp [asserted])]
  case counted =>
    rw [operationError_counted power (by simp [released, taken]), ← taken]
  case spans =>
    change live s (s.writeTransfer bytes) = _
    rw [live_on power, writeTransfer_ignored (by simp [ignored])]
  case uncounted => exact operationError_ignored power (by simpa using ignored) op n
end

section
/-!
PROOFS. The tick (R213, R214, R67), TIME_SET with its catch-up (R216, R31), and the minute event (R29, R30).
-/

namespace Sys2Proof.Machine

variable {s : State}

/-! ### One change made for every lane -/

/-- A change of each lane's Lane Unit and Sign Unit, over some lanes. -/
theorem foldl_lanesAndSigns (f : LaneUnit → LaneUnit) (g : Sign → Sign) (l : List Lane) (nodup : l.Nodup) (s : State) :
    let t := l.foldl (fun t n => (t.modLane n f).modSign n g) s
    t = { s with lanes := t.lanes, signs := t.signs }
      ∧ (∀ n, t.lane n = if n ∈ l then f (s.lane n) else s.lane n)
      ∧ ∀ n, t.sign n = if n ∈ l then g (s.sign n) else s.sign n := by
  induction l generalizing s with
  | nil => simp
  | cons m l ih =>
    obtain ⟨fresh, nodup⟩ := List.nodup_cons.1 nodup
    obtain ⟨frame, lanes, signs⟩ := ih nodup ((s.modLane m f).modSign m g)
    refine ⟨frame, fun n => ?_, fun n => ?_⟩
    · refine (lanes n).trans ?_
      change (if n ∈ l then f ((s.modLane m f).lane n) else (s.modLane m f).lane n) = _
      by_cases same : n = m
      · subst same
        simp [fresh]
      · simp [same, modLane_lane_other _ f same]
    · have lane : (s.modLane m f).sign n = s.sign n := rfl
      refine (signs n).trans ?_
      by_cases same : n = m
      · subst same
        rw [modSign_sign_same, lane]
        simp [fresh]
      · rw [modSign_sign_other _ g same, lane]
        simp [same]

/-- The timers at a tick boundary. -/
theorem tickBoundary_spec (s : State) :
    s.tickBoundary = { s with
        lanes := s.tickBoundary.lanes, signs := s.tickBoundary.signs, time := s.tickBoundary.time }
      ∧ (∀ n, s.tickBoundary.lane n = (s.lane n).tick) ∧ ∀ n, s.tickBoundary.sign n = (s.sign n).tick := by
  obtain ⟨frame, lanes, signs⟩ := foldl_lanesAndSigns LaneUnit.tick Sign.tick _ (List.nodup_finRange 12) s
  refine ⟨?_, fun n => ?_, fun n => ?_⟩
  · unfold State.tickBoundary forLanes
    rw [frame]
  · exact (lanes n).trans (by simp)
  · exact (signs n).trans (by simp)

/-! ### The timers -/

theorem Sign.tick_eq (g : Sign) :
    g.tick = { g with reply := g.reply - 1, replyDue := g.replyDue || decide (g.reply = 1) } := by
  unfold Sign.tick
  split_ifs with stopped last
  · cases g
    simp_all
  · simp [last]
  · simp [last]

theorem LaneUnit.tick_eq (l : LaneUnit) :
    l.tick = { l with
      dwell := tickDwell (l.mode == .auto) l.limits l.dwell
      refresh := if l.refresh ≤ 1 then l.limits.refresh else l.refresh - 1
      refreshDue := if l.refresh ≤ 1 then l.refreshDue + 1 else l.refreshDue } := by
  unfold LaneUnit.tick LaneUnit.tickRefresh
  split_ifs <;> rfl

variable {auto : Bool} {lim : Limits} {d : Dwell}

theorem tickDwell_held (h : auto = false ∨ d.form = .stopped) : tickDwell auto lim d = d := by
  rcases h with h | h <;> simp [tickDwell, h]

theorem tickDwell_running (running : d.form ≠ .stopped) (h : 1 < d.count) :
    tickDwell true lim d = { d with count := d.count - 1 } := by
  simp [tickDwell, running, Nat.not_le.2 h]

theorem tickDwell_oneShot (form : d.form = .oneShot) (h : d.count ≤ 1) :
    tickDwell true lim d = { d with form := .stopped, count := 0, due := d.due + 1 } := by
  simp [tickDwell, form, h]

theorem tickDwell_repeating (form : d.form = .repeating) (h : d.count ≤ 1) :
    tickDwell true lim d = { d with count := lim.get d.limit, due := d.due + 1 } := by
  simp [tickDwell, form, h]

/-- A one-shot timer counts down without an expiry before its last tick (R67). -/
theorem iterate_tick {u : LaneUnit} (auto : u.mode = .auto) (form : u.dwell.form = .oneShot) {j : Nat}
    (before : j < u.dwell.count) :
    (LaneUnit.tick^[j] u).mode = .auto ∧ (LaneUnit.tick^[j] u).dwell = { u.dwell with count := u.dwell.count - j } := by
  induction j with
  | zero => exact ⟨auto, rfl⟩
  | succ j ih =>
    obtain ⟨mode, dwell⟩ := ih (by omega)
    rw [Function.iterate_succ_apply', LaneUnit.tick_eq]
    refine ⟨mode, ?_⟩
    dsimp only
    rw [mode, dwell]
    have counts : tickDwell true (LaneUnit.tick^[j] u).limits { u.dwell with count := u.dwell.count - j } = _ :=
      tickDwell_running (by simp [form]) (by simp only; omega)
    exact counts.trans (by simp [Nat.sub_sub])

/-- It expires at the tick that its count names, and is stopped (R67). -/
theorem iterate_tick_last {u : LaneUnit} (auto : u.mode = .auto) (form : u.dwell.form = .oneShot)
    (loaded : 1 ≤ u.dwell.count) :
    (LaneUnit.tick^[u.dwell.count] u).dwell = { u.dwell with form := .stopped, count := 0, due := u.dwell.due + 1 } := by
  obtain ⟨j, last⟩ : ∃ j, u.dwell.count = j + 1 := ⟨u.dwell.count - 1, by omega⟩
  obtain ⟨mode, dwell⟩ := iterate_tick auto form (show j < u.dwell.count by omega)
  rw [last, Function.iterate_succ_apply', LaneUnit.tick_eq]
  dsimp only
  rw [mode, dwell]
  exact tickDwell_oneShot form (by simp only; omega)

/-! ### Sixteen ticks (R213) -/

theorem sum_tickLength (t : TimeBase) (n : Nat) :
    ((List.range n).map fun i => ({ t with fine := i } : TimeBase).tickLength).sum = n * t.d + min n t.f := by
  induction n with
  | zero => simp
  | succ n ih =>
    rw [List.range_succ, List.map_append, List.sum_append, ih, Nat.succ_mul]
    simp only [List.map_cons, List.map_nil, List.sum_cons, List.sum_nil, TimeBase.tickLength]
    split <;> omega

theorem count_longTicks (t : TimeBase) (n : Nat) :
    ((List.range n).countP fun i => ({ t with fine := i } : TimeBase).tickLength == t.d + 1) = min n t.f := by
  induction n with
  | zero => simp
  | succ n ih =>
    rw [List.range_succ, List.countP_append, ih]
    simp only [List.countP_cons, List.countP_nil, TimeBase.tickLength]
    by_cases long : n < t.f
    · simp only [long, if_true, beq_self_eq_true]
      omega
    · simp [long]
      omega

/-! ### TIME_SET (R216) -/

section
variable {f : ReqFrame} {rest : List ReqFrame} {m : Nat}

theorem decodeAll_d4 (h : m < 4294967296) : decodeAll d4 (e4 m) = some m :=
  decodeAll_of_run (by simpa using run_d4 m [] h)

/-- The state with the gate minute set (R216). -/
def State.withMinute (s : State) (m : Nat) : State :=
  { s with time := { s.time with minute := m, phase := 0, clockSet := true } }

/-- TIME_SET with a minute that decodes: it is refused, starts a catch-up, or ends at once. -/
theorem timeSet_ready (h : s.Ready 0x08#8 f rest) (inRange : m < 4294967296) (fields : f.fields = e4 m) :
    exec .timeSet s = .next (
      if m < s.time.minute then (s.taken rest).answered f .timeBackward []
      else if s.time.minute < m ∧ s.ring.due m then
        ((s.taken rest).withMinute m).modLink fun l => { l with exec := some ⟨f.code, f.tag, false, .catchUp m 0⟩ }
      else ((s.taken rest).withMinute m).answered f .ok (e4 m ++ e4 0)) := by
  change live s (takeTimeSet s) = _
  rw [live_on h.power]
  simp only [takeTimeSet, startable_of_ready h, fields, decodeAll_d4 inRange]
  rfl

end

/-- The retirement test of a catch-up, while the oldest window is due (R31). -/
theorem catchUp_due {e : Execution} {m k : Nat} (power : s.prst = false) (running : s.link.exec = some e)
    (work : e.work = .catchUp m k) (due : s.ring.OldestDue s.time.minute) :
    exec .catchUpRetirement s = .next (
      if s.retireOne.ring.due s.retireOne.time.minute then
        s.retireOne.modLink fun l => { l with exec := some { e with work := .catchUp m (k + 1) } }
      else s.retireOne.finish e .ok (e4 m ++ e4 (k + 1))) := by
  change live s _ = _
  rw [live_on power]
  simp only [running, work, State.catchUpStep, Ring.due_iff.2 due, if_true]
  rfl

/-! ### The minute event (R29) -/

theorem minuteEvent_notGiven (power : s.prst = false) (given : s.time.minuteDue = false) :
    exec .minuteEvent s = .next s := by
  change live s _ = _
  simp [live_on power, given]

theorem minuteEvent_given (power : s.prst = false) (given : s.time.minuteDue = true) :
    exec .minuteEvent s = .next (
      if s.catchingUp then { s with time := { s.time with minuteDue := false } }
      else ({ s with time := { s.time with minuteDue := false } } : State).retireDue) := by
  change live s _ = _
  rw [live_on power, given]
  rfl

end Sys2Proof.Machine

open Sys2Proof Sys2Proof.Machine in
/-- Settles O11. -/
theorem ticksReachEveryTimerAndLastSixteenDPlusF : Obligations.TicksReachEveryTimerAndLastSixteenDPlusF := by
  refine ⟨⟨fun s power => ?reach, fun u N auto form count loaded due => ?expires⟩, fun t f => ?sixteen⟩
  case reach =>
    obtain ⟨frame, lanes, signs⟩ := tickBoundary_spec s
    refine ⟨s.tickBoundary, live_on power _, frame, ?_, fun n => ⟨_, (lanes n).trans (s.lane n).tick_eq, ?_, ?_, ?_, ?_⟩,
      fun n => (signs n).trans (s.sign n).tick_eq⟩
    · rw [s.tickBoundary_time]
      unfold TimeBase.nextTick TimeBase.countTick Config.maxMinute
      by_cases inMinute : s.time.phase < 599
      · simp [inMinute, Nat.not_le.2 inMinute]
      · by_cases room : s.time.minute < 4294967295 <;> simp [inMinute, Nat.le_of_not_lt inMinute, room]
    · intro held
      exact tickDwell_held (held.imp (by simp) id)
    · intro auto running more
      rw [auto]
      exact tickDwell_running running more
    · intro auto form last
      rw [auto]
      exact tickDwell_oneShot form last
    · intro auto form last
      rw [auto]
      exact tickDwell_repeating form last
  case expires =>
    subst count
    refine ⟨fun j before => ?_, ?_⟩
    · rw [(iterate_tick auto form before).2]
      exact ⟨due, form⟩
    · rw [iterate_tick_last auto form loaded]
      exact ⟨by simp [due], rfl⟩
  case sixteen => rw [sum_tickLength, count_longTicks]; omega

open Sys2Proof Sys2Proof.Machine in
/-- Settles O13. -/
theorem timeSetAndItsCatchUp : Obligations.TimeSetAndItsCatchUp := by
  constructor
  · intro s f rest m ready inRange fields t
    rw [timeSet_ready ready inRange fields]
    refine ⟨fun back => ?_, fun forward idle => ?_, fun forward due => ?_⟩
    · rw [if_pos back]
    · rw [if_neg (Nat.not_lt.2 forward), if_neg]
      · rfl
      · rintro ⟨moved, due⟩
        rcases idle with rfl | idle
        · exact Nat.lt_irrefl _ moved
        · exact idle (Ring.due_iff.1 due)
    · rw [if_neg (Nat.not_lt.2 forward.le), if_pos ⟨forward, Ring.due_iff.2 due⟩]
      rfl
  · intro s e m k w newer newest power running work windows last due t
    have retires : s.retireOne = t := State.retireOne_of_cons windows last
    rw [catchUp_due power running work due, retires]
    refine ⟨fun again => ?_, fun done => ?_⟩
    · exact congrArg _ (if_pos (Ring.due_iff.2 again))
    · exact congrArg _ (if_neg (mt Ring.due_iff.1 done))

open Sys2Proof Sys2Proof.Machine in
/-- Settles O14, by the run of a retirement test. -/
theorem minuteEventRetiresEveryDueWindow : Obligations.MinuteEventRetiresEveryDueWindow := by
  intro s power
  refine ⟨minuteEvent_notGiven power, fun e m k given running work => ?_, fun given idle kept => ?_⟩
  · have busy : s.catchingUp = true := by simp [State.catchingUp, running, work]
    rw [minuteEvent_given power given, if_pos busy]
  · obtain ⟨k, run, retires, start, steps, ends⟩ :=
      State.retireDue_eq_run (s := { s with time := { s.time with minuteDue := false } }) kept
    refine ⟨k, run, ?_, start, steps, ends⟩
    rw [minuteEvent_given power given, if_neg (by simp [idle]), retires]
end

section
/-!
PROOFS. The frames as a host and a link build them (R219, R220), and the three forms of a host request (R203): what one
answers at once, a booking request, and TIME_SET. From the form follow what a request that cannot start does, and what
fields that do not decode are answered with (R204, R61).
-/

namespace Sys2Proof.Machine

variable {s : State}

/-! ### Frames (R202, R219, R220) -/

theorem length_checkBytes (bytes : List Byte) : (checkBytes bytes).length = 2 := rfl

/-- A frame built by the layout of R219 is judged sound. -/
theorem judgeRequest_built {code hi lo : Byte} {fields : List Byte} (fits : fields.length ≤ 1017) :
    let body := e2 (3 + fields.length) ++ code :: hi :: lo :: fields
    judgeRequest (body ++ checkBytes body) = .ok ⟨code, hi ++ lo, fields⟩ := by
  intro body
  have length : body.length = 3 + fields.length + 2 := by simp [body, e2]; omega
  have field : lengthField (body ++ checkBytes body) = 3 + fields.length := by
    simp only [body, e2, List.cons_append, List.nil_append, lengthField, BitVec.toNat_ofNat]
    omega
  have taken : (body ++ checkBytes body).take (3 + fields.length + 2) = body := List.take_left' length
  have dropped : (body ++ checkBytes body).drop (3 + fields.length + 2) = checkBytes body := List.drop_left' length
  rw [judgeRequest_of_sound field ?framed (by rw [taken, dropped]), taken]
  case framed =>
    rw [List.length_append, length, length_checkBytes]
    omega
  rfl

/-- A character received with no serial fault. -/
def sound (b : Byte) : RxChar := ⟨b, false⟩

/-- A byte that is no mark is received as it is (R220). -/
theorem unstuff_plain {b : Byte} (h : ¬ (b = 0x7C#8 ∨ b = 0x7D#8 ∨ b = 0x7E#8)) (rest : List RxChar) :
    unstuff (sound b :: rest) = (unstuff rest).map (b :: ·) := by
  obtain ⟨notEnd, notStuff, notStart⟩ := (not_or.1 h).imp_right not_or.1
  rw [unstuff.eq_def]
  dsimp only [sound]
  rw [if_neg Bool.false_ne_true, if_neg notEnd, if_neg notStart, if_neg notStuff]

/-- A stuffed mark is received as the mark (R220). -/
theorem unstuff_stuffed {b : Byte} (h : b = 0x7C#8 ∨ b = 0x7D#8 ∨ b = 0x7E#8) (rest : List RxChar) :
    unstuff (sound 0x7D#8 :: sound (b ^^^ 0x20#8) :: rest) = (unstuff rest).map (b :: ·) := by
  have back : b ^^^ 0x20#8 ^^^ 0x20#8 = b := by simp
  have mark : (!false && (b == 0x7C#8 || b == 0x7D#8 || b == 0x7E#8)) = true := by
    rcases h with rfl | rfl | rfl <;> rfl
  rw [unstuff.eq_def]
  dsimp only [sound]
  rw [if_neg Bool.false_ne_true, if_neg (by decide), if_neg (by decide), if_pos rfl, back, if_pos mark]

theorem unstuff_end : unstuff [sound 0x7C#8] = some [] := by decide

/-- What the framing puts between the marks comes back. -/
theorem unstuff_stuffBytes (bytes : List Byte) :
    unstuff ((bytes.flatMap stuffByte).map sound ++ [sound 0x7C#8]) = some bytes := by
  induction bytes with
  | nil => exact unstuff_end
  | cons b bytes ih =>
    rw [List.flatMap_cons, List.map_append, List.append_assoc]
    by_cases mark : b = 0x7C#8 ∨ b = 0x7D#8 ∨ b = 0x7E#8
    · rw [show stuffByte b = [0x7D#8, b ^^^ 0x20#8] from if_pos mark]
      exact (unstuff_stuffed mark _).trans (congrArg _ ih)
    · rw [show stuffByte b = [b] from if_neg mark]
      exact (unstuff_plain mark _).trans (congrArg _ ih)

theorem serialFrame_serialBytes {kind : Byte} {body : List Byte} (fits : body.length ≤ 255) :
    serialFrame ((serialBytes ⟨kind, body⟩).map sound) = .ok ⟨kind, body⟩ := by
  have len : (BitVec.ofNat 8 body.length).toNat = body.length := by
    rw [BitVec.toNat_ofNat]
    omega
  let inner := kind :: BitVec.ofNat 8 body.length :: body
  have start : (serialBytes ⟨kind, body⟩).map sound
      = sound 0x7E#8 :: (((inner ++ checkBytes inner).flatMap stuffByte).map sound ++ [sound 0x7C#8]) := by
    simp [serialBytes, inner]
  have between : inner ++ checkBytes inner = kind :: BitVec.ofNat 8 body.length :: (body ++ checkBytes inner) := rfl
  rw [start, serialFrame, if_neg (by simp [sound]), unstuff_stuffBytes, between]
  dsimp only
  rw [len, List.take_left, List.drop_left, if_neg (by simp [length_checkBytes]), if_neg (by simp [inner])]

/-! ### The forms of a host request (R203, R204) -/

/-- How a command that starts a host request with a code takes it. -/
inductive RequestForm (c : Instr) (code : Byte) : Prop
  | answered {α : Type} (dec : Dec α) (serve : α → State → Answer)
      (meaning : ∀ s, exec c s = live s (takeRequest code dec serve s))
      (decodes : ∀ fields, fieldsDecode c fields = (decodeAll dec fields).isSome) (leaves : LeavesRest dec)
  | booking (dec : Dec BookReq) (meaning : ∀ s, exec c s = live s (takeBooking code dec s))
      (decodes : ∀ fields, fieldsDecode c fields = (decodeAll dec fields).isSome) (leaves : LeavesRest dec)
  | timeSet (is : c = .timeSet) (its : code = 0x08#8)

theorem leaves_dRef (f : Text → BookReq) : LeavesRest (dRef f) := leaves_bind leaves_dText fun _ => leaves_pure _

/-- A request that carries the reference alone decodes where the reference does. -/
theorem decodeAll_dRef (f : Text → BookReq) (fields : List Byte) :
    (decodeAll (dRef f) fields).isSome = (decodeAll dText fields).isSome := by
  unfold decodeAll
  rw [show dRef f = (dText >>= fun ref => pure (f ref)) from rfl, run_bind]
  rcases dText.run fields with _ | ⟨ref, _ | ⟨b, left⟩⟩ <;> rfl

theorem leaves_dRow : LeavesRest dRow :=
  leaves_bind (leaves_dOpt leaves_d2signed) fun _ => leaves_bind (leaves_dOpt leaves_d2signed) fun _ =>
    leaves_bind (leaves_dOpt leaves_d2signed) fun _ => leaves_pure _

/-- The decoders of the requests are built from decoders that leave what stands behind their fields. -/
theorem requestForm {c : Instr} {code : Byte} (h : requestCode c = some code) : RequestForm c code := by
  cases c <;> cases h
  case status | changeNext | gateRestart => exact .answered _ _ (fun _ => rfl) (fun _ => rfl) (leaves_pure _)
  case attnEnableSet | attnEnableClear => exact .answered _ _ (fun _ => rfl) (fun _ => rfl) (leaves_dMask _)
  case timeSet => exact .timeSet rfl rfl
  case bookCreate =>
    refine .booking _ (fun _ => rfl) (fun _ => rfl) ?_
    exact leaves_bind leaves_dText fun _ => leaves_bind (leaves_dEnum _) fun _ => leaves_bind leaves_d4 fun _ =>
      leaves_bind leaves_d1 fun _ => leaves_bind (leaves_dOpt leaves_dText) fun _ =>
      leaves_bind (leaves_dOpt leaves_dText) fun _ => leaves_bind (leaves_dOpt (leaves_dList _ leaves_dText)) fun _ =>
      leaves_bind (leaves_dOpt (leaves_dEnum _)) fun _ => leaves_bind (leaves_dOpt leaves_d1) fun _ =>
      leaves_bind (leaves_dOpt leaves_d1) fun _ => leaves_pure _
  case bookAmend =>
    refine .booking _ (fun _ => rfl) (fun _ => rfl) ?_
    exact leaves_bind leaves_dText fun _ => leaves_bind (leaves_dOpt leaves_d4) fun _ =>
      leaves_bind leaves_dPlateChange fun _ => leaves_bind (leaves_dOpt (leaves_dList _ leaves_dText)) fun _ =>
      leaves_bind (leaves_dOpt (leaves_dEnum _)) fun _ => leaves_bind (leaves_dOpt leaves_d1) fun _ =>
      leaves_bind (leaves_dOpt leaves_d1) fun _ => leaves_bind (leaves_dOpt leaves_d1) fun _ =>
      leaves_bind (leaves_dOpt leaves_dText) fun _ => leaves_pure _
  case bookCancel | bookRetire | bookQuery =>
    exact .booking _ (fun _ => rfl) (fun fields => (decodeAll_dRef _ fields).symm) (leaves_dRef _)
  case bookScan =>
    exact .booking _ (fun _ => rfl) (fun _ => rfl)
      (leaves_bind (leaves_dEnum _) fun _ => leaves_bind leaves_d2 fun _ => leaves_pure _)
  case windowPlan =>
    refine .answered _ _ (fun _ => rfl) (fun _ => rfl) ?_
    exact leaves_bind leaves_d4 fun _ => leaves_bind leaves_d1 fun _ => leaves_bind leaves_d1 fun _ =>
      leaves_bind leaves_d1 fun _ => leaves_bind leaves_d1 fun _ => leaves_pure _
  case windowSet =>
    exact .answered _ _ (fun _ => rfl) (fun _ => rfl)
      (leaves_bind leaves_d4 fun _ => leaves_bind (leaves_dRepeat (leaves_dOpt leaves_d2) _) fun _ => leaves_pure _)
  case windowSetAllowances =>
    exact .answered _ _ (fun _ => rfl) (fun _ => rfl)
      (leaves_bind (leaves_dOpt leaves_d1) fun _ => leaves_bind (leaves_dOpt leaves_d1) fun _ =>
        leaves_bind (leaves_dOpt leaves_d1) fun _ => leaves_pure _)
  case defaultQuota =>
    exact .answered _ _ (fun _ => rfl) (fun _ => rfl)
      (leaves_bind leaves_d2 fun _ => leaves_bind leaves_d2 fun _ => leaves_bind leaves_d2 fun _ =>
        leaves_bind leaves_d2 fun _ => leaves_pure _)
  case tickSet =>
    exact .answered _ _ (fun _ => rfl) (fun _ => rfl)
      (leaves_bind (leaves_dOpt leaves_d4) fun _ => leaves_bind (leaves_dOpt leaves_d1) fun _ => leaves_pure _)
  case windowQuery => exact .answered _ _ (fun _ => rfl) (fun _ => rfl) (leaves_dOpt leaves_d4)
  case laneMode =>
    exact .answered _ _ (fun _ => rfl) (fun _ => rfl)
      (leaves_bind leaves_d1 fun _ => leaves_bind (leaves_dEnum _) fun _ => leaves_pure _)
  case laneSet =>
    refine .answered _ _ (fun _ => rfl) (fun _ => rfl) ?_
    exact leaves_bind leaves_d1 fun _ => leaves_bind (leaves_dOpt leaves_d2) fun _ =>
      leaves_bind (leaves_dOpt leaves_d2) fun _ => leaves_bind (leaves_dOpt leaves_d2) fun _ =>
      leaves_bind (leaves_dOpt leaves_d2) fun _ => leaves_bind (leaves_dOpt leaves_d2) fun _ =>
      leaves_bind (leaves_dOpt leaves_d2) fun _ => leaves_bind (leaves_dOpt leaves_d2) fun _ =>
      leaves_bind (leaves_dOpt leaves_d2) fun _ => leaves_pure _
  case laneAbort | laneReset | pointRead => exact .answered _ _ (fun _ => rfl) (fun _ => rfl) leaves_d1
  case pointWrite =>
    refine .answered _ _ (fun _ => rfl) (fun _ => rfl) ?_
    exact leaves_bind leaves_d1 fun _ => leaves_bind leaves_d1 fun _ =>
      leaves_bind (leaves_dOpt (leaves_dEnum _)) fun _ => leaves_bind (leaves_dOpt leaves_d1) fun _ => leaves_pure _
  case laneFlagsClear =>
    exact .answered _ _ (fun _ => rfl) (fun _ => rfl)
      (leaves_bind leaves_d1 fun _ => leaves_bind (leaves_dMask _) fun _ => leaves_pure _)
  case visitQuery | visitClose => exact .answered _ _ (fun _ => rfl) (fun _ => rfl) leaves_dHandle
  case visitDecide =>
    exact .answered _ _ (fun _ => rfl) (fun _ => rfl)
      (leaves_bind leaves_dHandle fun _ => leaves_bind (leaves_dChoice (leaves_pure _)
        (leaves_bind (leaves_dList _ (leaves_dEnum _)) fun _ => leaves_pure _)) fun _ => leaves_pure _)
  case checkSet =>
    exact .answered _ _ (fun _ => rfl) (fun _ => rfl)
      (leaves_bind (leaves_dOpt leaves_d1) fun _ => leaves_bind (leaves_dOpt leaves_d1) fun _ => leaves_pure _)
  case sealSet =>
    exact .answered _ _ (fun _ => rfl) (fun _ => rfl)
      (leaves_bind (leaves_dOpt leaves_d1) fun _ => leaves_bind (leaves_dOpt (leaves_dEnum _)) fun _ => leaves_pure _)
  case mixSet =>
    refine .answered _ _ (fun _ => rfl) (fun _ => rfl) ?_
    exact leaves_bind leaves_dRow fun _ => leaves_bind leaves_dRow fun _ => leaves_bind leaves_dRow fun _ =>
      leaves_bind (leaves_dOpt leaves_d1) fun _ => leaves_bind (leaves_dOpt leaves_d1) fun _ =>
      leaves_bind (leaves_dOpt leaves_d1) fun _ => leaves_bind (leaves_dOpt leaves_d2) fun _ =>
      leaves_bind (leaves_dOpt leaves_d2) fun _ => leaves_bind (leaves_dOpt leaves_d2) fun _ =>
      leaves_bind (leaves_dOpt leaves_d1) fun _ => leaves_bind (leaves_dOpt leaves_d1) fun _ => leaves_pure _
  case graderStatus => exact .answered _ _ (fun _ => rfl) (fun _ => rfl) (leaves_dEnum _)
  case blockSet =>
    refine .answered _ _ (fun _ => rfl) (fun _ => rfl) ?_
    exact leaves_bind leaves_d1 fun _ => leaves_bind (leaves_dOpt (leaves_dEnum _)) fun _ =>
      leaves_bind (leaves_dOpt leaves_dText) fun _ => leaves_bind (leaves_dOpt (leaves_dEnum _)) fun _ =>
      leaves_bind (leaves_dOpt leaves_d2) fun _ => leaves_bind (leaves_dOpt leaves_d2) fun _ =>
      leaves_bind (leaves_dOpt leaves_dText) fun _ => leaves_pure _
  case blockQuery => exact .answered _ _ (fun _ => rfl) (fun _ => rfl) (leaves_dOpt leaves_d1)
  case groupSet =>
    exact .answered _ _ (fun _ => rfl) (fun _ => rfl)
      (leaves_bind leaves_d1 fun _ => leaves_bind (leaves_dOpt (leaves_dList _ leaves_d1)) fun _ => leaves_pure _)
  case baySet =>
    refine .answered _ _ (fun _ => rfl) (fun _ => rfl) ?_
    exact leaves_bind leaves_d1 fun _ => leaves_bind (leaves_dOpt leaves_dText) fun _ =>
      leaves_bind (leaves_dOpt leaves_dText) fun _ => leaves_bind (leaves_dOpt (leaves_dEnum _)) fun _ =>
      leaves_pure _
  case legDone =>
    exact .answered _ _ (fun _ => rfl) (fun _ => rfl)
      (leaves_bind leaves_dHandle fun _ => leaves_bind leaves_d1 fun _ => leaves_pure _)
  case signSet =>
    refine .answered _ _ (fun _ => rfl) (fun _ => rfl) ?_
    exact leaves_bind leaves_d1 fun _ => leaves_bind (leaves_dOpt (leaves_dEnum _)) fun _ =>
      leaves_bind (leaves_dOpt (leaves_dEnum _)) fun _ => leaves_bind (leaves_dOpt leaves_dText) fun _ =>
      leaves_bind (leaves_dEnum _) fun _ => leaves_pure _

variable {c : Instr} {code : Byte} {f : ReqFrame} {rest : List ReqFrame}

theorem live_self (s : State) : live s s = .next s := by simp [live]

/-- A request that cannot start leaves the state as it is (R203). -/
theorem exec_of_unstartable (h : requestCode c = some code) (no : s.startable code = none) : exec c s = .next s := by
  cases requestForm h with
  | answered dec serve meaning => rw [meaning, takeRequest_none no, live_self]
  | booking dec meaning => rw [meaning, takeBooking_none no, live_self]
  | timeSet is its =>
    subst is its
    change live s (takeTimeSet s) = _
    rw [takeTimeSet, no, live_self]

theorem startable_eq_none (h : s.link.exec ≠ none ∨ 16 ≤ s.link.responses.length
    ∨ s.link.requests.head?.map (·.code) ≠ some code) : s.startable code = none := by
  unfold State.startable
  split
  case h_1 => rfl
  case h_2 f rest queue =>
    refine if_neg ?_
    rintro ⟨rfl, idle, place⟩
    rcases h with busy | full | other
    · exact busy idle
    · exact absurd place (Nat.not_lt.2 full)
    · exact other (by simp [queue])

/-- Fields that do not decode are refused with BAD_PARAM, without the owner (R204). -/
theorem exec_of_undecoded (h : requestCode c = some code) (ready : s.Ready code f rest)
    (undecoded : fieldsDecode c f.fields = false) : exec c s = .next ((s.taken rest).answered f .badParam []) := by
  cases requestForm h with
  | answered dec serve meaning decodes =>
    rw [decodes, Option.isSome_eq_false_iff, Option.isNone_iff_eq_none] at undecoded
    rw [meaning, takeRequest_undecoded ready undecoded, live_on ready.power]
  | booking dec meaning decodes =>
    rw [decodes, Option.isSome_eq_false_iff, Option.isNone_iff_eq_none] at undecoded
    rw [meaning, takeBooking_undecoded ready undecoded, live_on ready.power]
  | timeSet is its =>
    subst is its
    have undecoded : decodeAll d4 f.fields = none := by simpa [fieldsDecode] using undecoded
    change live s (takeTimeSet s) = _
    simp only [takeTimeSet, startable_of_ready ready, undecoded, live_on ready.power]
    rfl

theorem fieldsDecode_append (h : requestCode c = some code) {fields extra : List Byte}
    (decodes : fieldsDecode c fields = true) (more : extra ≠ []) : fieldsDecode c (fields ++ extra) = false := by
  cases requestForm h with
  | answered dec serve _ eq leaves =>
    rw [eq] at decodes ⊢
    exact decodeAll_append leaves _ _ more decodes
  | booking dec _ eq leaves =>
    rw [eq] at decodes ⊢
    exact decodeAll_append leaves _ _ more decodes
  | timeSet is =>
    subst is
    exact decodeAll_append leaves_d4 _ _ more decodes

/-- A command that starts no request has no fields to decode. -/
theorem requestCode_of_fieldsDecode {fields : List Byte} (h : fieldsDecode c fields = true) :
    ∃ code, requestCode c = some code := by
  cases c <;> first | exact ⟨_, rfl⟩ | cases h

/-- A request that carries fields does not decode with none. -/
theorem fieldsDecode_nil (h : requestCode c = some code) :
    fieldsDecode c [] = true ↔ c = .status ∨ c = .changeNext ∨ c = .gateRestart := by
  cases c <;> cases h <;> decide

/-- The commands that start the requests of R203's table, in the order of its codes. -/
def requestCommands : List Instr :=
  [.status, .changeNext, .attnEnableSet, .attnEnableClear, .gateRestart, .timeSet, .tickSet, .bookCreate, .bookAmend,
    .bookCancel, .bookRetire, .bookQuery, .bookScan, .windowPlan, .windowSet, .windowSetAllowances, .defaultQuota,
    .windowQuery, .laneMode, .laneSet, .laneAbort, .laneReset, .pointWrite, .pointRead, .laneFlagsClear, .visitQuery,
    .visitDecide, .visitClose, .checkSet, .sealSet, .mixSet, .graderStatus, .blockSet, .blockQuery, .groupSet, .baySet,
    .legDone, .signSet]

theorem requestCodes_eq : requestCodes = requestCommands.filterMap requestCode := by decide

/-- Every code of R203's table is the code of a command. -/
theorem exists_command_of_mem (h : code ∈ requestCodes) : ∃ c, requestCode c = some code := by
  rw [requestCodes_eq, List.mem_filterMap] at h
  obtain ⟨c, -, is⟩ := h
  exact ⟨c, is⟩

theorem exec_unknownRequest (ready : s.Ready f.code f rest) (unknown : f.code ∉ requestCodes) :
    exec .unknownRequest s = .next ((s.taken rest).answered f .unknownRequest []) := by
  change live s _ = _
  simp only [live_on ready.power, ready.queue, unknown, if_false, startable_of_ready ready]
  rfl

/-! ### Lanes and handles as received (R61) -/

/-- Every value that a decoder answers has a property. -/
def Yields {α : Type} (d : Dec α) (P : α → Prop) : Prop := ∀ b a r, d.run b = some (a, r) → P a

theorem yields_pure {α : Type} {P : α → Prop} {a : α} (h : P a) : Yields (pure a : Dec α) P := by
  intro b a' r read
  rw [run_pure] at read
  cases read
  exact h

theorem yields_bind {α β : Type} {P : β → Prop} {d : Dec α} {k : α → Dec β} (h : ∀ a, Yields (k a) P) :
    Yields (d >>= k) P := by
  intro b a r read
  rw [run_bind, Option.bind_eq_some_iff] at read
  obtain ⟨p, -, read⟩ := read
  exact h p.1 _ _ _ read

theorem decodeAll_eq_some {α : Type} {dec : Dec α} {fields : List Byte} {a : α} (h : decodeAll dec fields = some a) :
    dec.run fields = some (a, []) := by
  unfold decodeAll at h
  split at h
  · cases h
    assumption
  · cases h

/-- A decoder that reads a lane number first answers it as its lane. -/
theorem lane_of_decodeAll {α : Type} {k : Nat → Dec α} {get : α → Nat} (h : ∀ n, Yields (k n) fun a => get a = n)
    {lane : Byte} {more : List Byte} {a : α} (decoded : decodeAll (d1 >>= k) (lane :: more) = some a) :
    get a = lane.toNat :=
  h _ _ _ _ (decodeAll_eq_some decoded)

theorem handle_of_decodeAll {α : Type} {k : Nat × Nat → Dec α} {get : α → Nat × Nat}
    (h : ∀ n, Yields (k n) fun a => get a = n) {v g : Byte} {more : List Byte} {a : α}
    (decoded : decodeAll (dHandle >>= k) (v :: g :: more) = some a) : get a = (v.toNat, g.toNat) :=
  h _ _ _ _ (decodeAll_eq_some decoded)

theorem laneOf_eq_none {n : Nat} (h : n = 0 ∨ 12 < n) : laneOf n = none := by
  unfold laneOf
  rw [dif_neg (by omega)]

theorem onLane_of_none {n : Nat} (h : laneOf n = none) (s : State) (serve : Lane → Answer) :
    onLane n s serve = refuse s .badParam := by
  simp only [onLane, h]

/-- A lane outside 1 to 12 is refused with BAD_PARAM, and so are fields that do not decode. -/
theorem takeRequest_badLane {α : Type} {k : Nat → Dec α} {get : α → Nat} {serve : α → State → Lane → Answer}
    (h : ∀ n, Yields (k n) fun a => get a = n) (ready : s.Ready code f rest) {lane : Byte} {more : List Byte}
    (fields : f.fields = lane :: more) (bad : lane = 0 ∨ 12 < lane.toNat) :
    live s (takeRequest code (d1 >>= k) (fun a t => onLane (get a) t (serve a t)) s) =
      .next ((s.taken rest).answered f .badParam []) := by
  have none : laneOf lane.toNat = none := laneOf_eq_none (bad.imp_left (by rintro rfl; rfl))
  rw [live_on ready.power]
  cases decoded : decodeAll (d1 >>= k) f.fields with
  | none => rw [takeRequest_undecoded ready decoded]
  | some a =>
    have is : get a = lane.toNat := lane_of_decodeAll h (fields ▸ decoded)
    rw [takeRequest_ready ready decoded, is, onLane_of_none none]
    rfl

/-- The same for a request whose only field is the lane. -/
theorem takeRequest_badLane_alone {serve : Nat → State → Lane → Answer} (ready : s.Ready code f rest) {lane : Byte}
    {more : List Byte} (fields : f.fields = lane :: more) (bad : lane = 0 ∨ 12 < lane.toNat) :
    live s (takeRequest code d1 (fun n t => onLane n t (serve n t)) s) =
      .next ((s.taken rest).answered f .badParam []) := by
  rw [show d1 = (d1 >>= pure) from (bind_pure d1).symm]
  exact takeRequest_badLane (get := id) (fun _ => yields_pure rfl) ready fields bad

/-- A handle that the checks of R61 refuse. -/
theorem takeRequest_badHandle {α : Type} {k : Nat × Nat → Dec α} {get : α → Nat × Nat}
    {serve : α → State → Fin 64 → Visit → Answer} (h : ∀ n, Yields (k n) fun a => get a = n)
    (ready : s.Ready code f rest) {v g : Byte} {more : List Byte} (fields : f.fields = v :: g :: more)
    (decodes : (decodeAll (dHandle >>= k) f.fields).isSome = true) {r : Result}
    (refused : s.checkHandle (v.toNat, g.toNat) = .error r) :
    live s (takeRequest code (dHandle >>= k) (fun a t => onVisit (get a) t (serve a t)) s) =
      .next ((s.taken rest).answered f r []) := by
  obtain ⟨a, decoded⟩ := Option.isSome_iff_exists.1 decodes
  have is : get a = (v.toNat, g.toNat) := handle_of_decodeAll h (fields ▸ decoded)
  have refused : (s.taken rest).checkHandle (v.toNat, g.toNat) = .error r := refused
  rw [live_on ready.power, takeRequest_ready ready decoded, is, onVisit, refused]
  rfl

theorem takeRequest_badHandle_alone {serve : Nat × Nat → State → Fin 64 → Visit → Answer} (ready : s.Ready code f rest)
    {v g : Byte} {more : List Byte} (fields : f.fields = v :: g :: more)
    (decodes : (decodeAll dHandle f.fields).isSome = true) {r : Result}
    (refused : s.checkHandle (v.toNat, g.toNat) = .error r) :
    live s (takeRequest code dHandle (fun h t => onVisit h t (serve h t)) s) = .next ((s.taken rest).answered f r []) := by
  rw [show dHandle = (dHandle >>= pure) from (bind_pure dHandle).symm] at decodes ⊢
  exact takeRequest_badHandle (get := id) (fun _ => yields_pure rfl) ready fields decodes refused

theorem checkHandle_outOfRange {v g : Nat} (h : 63 < v ∨ 15 < g) : s.checkHandle (v, g) = .error .badParam := by
  unfold State.checkHandle
  split
  · rw [if_neg (by simp only; omega)]
  · rfl

theorem checkHandle_free {v g : Nat} (hv : v < 64) (hg : g < 16) (free : s.visit ⟨v, hv⟩ = none) :
    s.checkHandle (v, g) = .error .notFound := by
  simp only [State.checkHandle, dif_pos hv, if_pos hg, free]

theorem checkHandle_stale {v g : Nat} (hv : v < 64) (hg : g < 16) (occupied : (s.visit ⟨v, hv⟩).isSome = true)
    (other : (s.visits[v]).gen.val ≠ g) : s.checkHandle (v, g) = .error .staleHandle := by
  obtain ⟨x, visit⟩ := Option.isSome_iff_exists.1 occupied
  simp only [State.checkHandle, dif_pos hv, if_pos hg, visit, if_neg other]

/-- The commands that name a visit refuse what the checks of its handle refuse. -/
theorem exec_of_badHandle (h : c ∈ [.visitQuery, .visitClose, .visitDecide, Instr.legDone])
    (is : requestCode c = some code) (ready : s.Ready code f rest) {v g : Byte} {more : List Byte}
    (fields : f.fields = v :: g :: more) (decodes : fieldsDecode c f.fields = true) {r : Result}
    (refused : s.checkHandle (v.toNat, g.toNat) = .error r) : exec c s = .next ((s.taken rest).answered f r []) := by
  simp only [List.mem_cons, List.not_mem_nil, or_false] at h
  rcases h with rfl | rfl | rfl | rfl <;> cases is
  · exact takeRequest_badHandle_alone ready fields decodes refused
  · exact takeRequest_badHandle_alone ready fields decodes refused
  · exact takeRequest_badHandle (get := Prod.fst) (fun _ => yields_bind fun _ => yields_pure rfl) ready fields decodes
      refused
  · exact takeRequest_badHandle (get := Prod.fst) (fun _ => yields_bind fun _ => yields_pure rfl) ready fields decodes
      refused

end Sys2Proof.Machine

open Sys2Proof Sys2Proof.Machine in
/-- Settles O5, by induction on the bytes between the marks. -/
theorem framesComeBackAsTheyWereBuilt : Obligations.FramesComeBackAsTheyWereBuilt := by
  refine ⟨fun s code hi lo fields fits power released taken room => ?_, fun kind body fits =>
    serialFrame_serialBytes fits⟩
  intro body
  change live s (s.writeTransfer _) = _
  rw [live_on power, writeTransfer_judged (by simp [released, taken]), judgeRequest_built fits]
  dsimp only
  rw [if_neg (Nat.not_le.2 room), ← taken]
  simp [length_checkBytes, body, e2]

open Sys2Proof Sys2Proof.Machine in
/-- Settles O7, from the forms of a request. -/
theorem requestsStartOnlyWhenTheyCanAndDecode : Obligations.RequestsStartOnlyWhenTheyCanAndDecode := by
  refine ⟨fun c code s is no => exec_of_unstartable is (startable_eq_none no),
    ⟨fun c code s f rest is ready undecoded => exec_of_undecoded is ready undecoded,
      fun s f rest ready unknown => exec_unknownRequest ready fun known => ?_⟩,
    fun c fields extra decodes more => ?_, fun c code is => fieldsDecode_nil is⟩
  · obtain ⟨c, is⟩ := exists_command_of_mem known
    exact unknown c is
  · obtain ⟨code, is⟩ := requestCode_of_fieldsDecode decodes
    exact fieldsDecode_append is decodes more

open Sys2Proof Sys2Proof.Machine in
/-- Settles O8. -/
theorem lanesAndHandlesAreChecked : Obligations.LanesAndHandlesAreChecked := by
  refine ⟨fun c code s f rest lane more named is ready fields bad => ?lane, fun c code s f rest v g more named is ready fields
    decodes => ⟨fun outside => ?_, fun hv hg free => ?_, fun hv hg occupied other => ?_⟩⟩
  case lane =>
    simp only [List.mem_cons, List.not_mem_nil, or_false] at named
    rcases named with rfl | rfl | rfl | rfl | rfl | rfl | rfl | rfl <;> cases is
    · exact takeRequest_badLane (get := Prod.fst) (fun _ => yields_bind fun _ => yields_pure rfl) ready fields bad
    · refine takeRequest_badLane (get := Prod.fst) (fun _ => ?_) ready fields bad
      exact yields_bind fun _ => yields_bind fun _ => yields_bind fun _ => yields_bind fun _ => yields_bind fun _ =>
        yields_bind fun _ => yields_bind fun _ => yields_bind fun _ => yields_pure rfl
    · exact takeRequest_badLane_alone ready fields bad
    · exact takeRequest_badLane_alone ready fields bad
    · refine takeRequest_badLane (get := PointReq.lane) (fun _ => ?_) ready fields bad
      exact yields_bind fun _ => yields_bind fun _ => yields_bind fun _ => yields_pure rfl
    · exact takeRequest_badLane_alone ready fields bad
    · exact takeRequest_badLane (get := Prod.fst) (fun _ => yields_bind fun _ => yields_pure rfl) ready fields bad
    · refine takeRequest_badLane (get := Prod.fst) (fun _ => ?_) ready fields bad
      exact yields_bind fun _ => yields_bind fun _ => yields_bind fun _ => yields_bind fun _ => yields_pure rfl
  · exact exec_of_badHandle named is ready fields decodes (checkHandle_outOfRange outside)
  · exact exec_of_badHandle named is ready fields decodes (checkHandle_free hv hg free)
  · exact exec_of_badHandle named is ready fields decodes (checkHandle_stale hv hg occupied other)
end

section
/-!
PROOFS. STATUS, CHANGE_NEXT and the attention enables (R209 to R212), and the settings that a request replaces: the
quotas (R37, R39, R40), the link flags (R57), the points (R44 to R48), the lane mode (R81) and the settings of R70, R97,
R114, R140 and R141.
-/

namespace Sys2Proof.Machine

variable {s t u : State} {f : ReqFrame} {rest : List ReqFrame}

/-! ### Reading a whole field list -/

theorem decodeAll_of_run_nil {α : Type} {d : Dec α} {bytes : List Byte} {a : α} (h : d.run (bytes ++ []) = some (a, [])) :
    decodeAll d bytes = some a :=
  decodeAll_of_run (by rwa [List.append_nil] at h)

theorem decodeAll_dNone {fields : List Byte} (h : fields = []) : decodeAll dNone fields = some () := by
  rw [h]
  rfl

/-- The number of a lane fits its byte. -/
theorem laneNumber_lt (n : Lane) : n.val + 1 < 256 := by omega

theorem laneByte_cons (n : Lane) (more : List Byte) : laneByte n :: more = e1 (n.val + 1) ++ more := rfl

theorem laneOf_number (n : Lane) : laneOf (n.val + 1) = some n := by
  unfold laneOf
  rw [dif_pos (by omega)]
  rfl

theorem onLane_number (n : Lane) (s : State) (serve : Lane → Answer) : onLane (n.val + 1) s serve = serve n := by
  simp only [onLane, laneOf_number]

theorem toNat_e1 (b : Byte) : e1 b.toNat = [b] := by simp [e1]

/-- A mask with a bit beyond its items does not decode (R219). -/
theorem run_dMask_wide {k n : Nat} (rest : List Byte) (wide : 2 ^ k ≤ n) (h : n < 256) :
    (dMask k).run (e1 n ++ rest) = none := by
  change (d1 >>= fun m => if m < 2 ^ k then pure m else dFail : Dec Nat).run _ = _
  rw [run_bind, run_d1 n rest h]
  simp only [Option.bind_some, if_neg (Nat.not_lt.2 wide), run_dFail]

theorem decodeAll_dMask {k : Nat} {mask : Byte} (h : mask.toNat < 2 ^ k) :
    decodeAll (dMask k) [mask] = some mask.toNat := by
  rw [← toNat_e1]
  exact decodeAll_of_run_nil (run_dMask k _ [] h mask.isLt)

theorem decodeAll_dMask_wide {k : Nat} {mask : Byte} (h : 2 ^ k ≤ mask.toNat) : decodeAll (dMask k) [mask] = none := by
  rw [← toNat_e1, ← List.append_nil (e1 _)]
  simp only [decodeAll, run_dMask_wide [] h mask.isLt]

/-! ### STATUS, CHANGE_NEXT and the enables (R209 to R212) -/

theorem standing_eq (r : Reasons) : standing r = r.codes := by
  obtain ⟨a, b, c, d, e, f, g, h⟩ := r
  revert a b c d e f g h
  decide

theorem serveChangeNext_empty (h : s.link.changes = []) : serveChangeNext s = refuse s .notFound := by
  simp only [serveChangeNext, h]

theorem serveChangeNext_cons {c : Change} {cs : List Change} (h : s.link.changes = c :: cs) :
    serveChangeNext s = accept (s.modLink fun l => { l with changes := cs }) (eChange s c ++ e1 cs.length) := by
  simp only [serveChangeNext, h]

/-- The two enable requests, taken (R211). -/
theorem serveEnables_taken (ready : s.prst = false) (on : Bool) (mask : Nat) :
    serveEnables on mask s = ⟨s.modLink fun l => l.setEnables mask on, .ok, eEnables (s.link.setEnables mask on)
      ++ eFlag s.link.hasVisit ++ eFlag s.link.hasLane ++ eFlag (0 < s.book.noShow)
      ++ eFlag (s.modLink fun l => l.setEnables mask on).attention⟩ := by
  simp [serveEnables, accept, eAttention, State.attn, Link.hasVisit, Link.hasLane, Link.setEnables, ready]

/-- A restart acts at the blocks, and the link reset line keeps the enables (R211). -/
def EnablesKept (s t : State) : Prop :=
  t.link.attnVisit = s.link.attnVisit ∧ t.link.attnLane = s.link.attnLane ∧ t.link.attnNoShow = s.link.attnNoShow

theorem EnablesKept.refl (s : State) : EnablesKept s s := ⟨rfl, rfl, rfl⟩

theorem EnablesKept.internal (h : Internal s t) : EnablesKept s t := by
  unfold EnablesKept
  rw [h.link]
  exact ⟨rfl, rfl, rfl⟩

theorem EnablesKept.live (h : EnablesKept s t) (done : live s t = .next u) : EnablesKept s u := by
  obtain rfl : (if s.prst then s else t) = u := by simpa [Machine.live] using done
  split
  · exact .refl s
  · exact h

theorem takeRequest_enablesKept {α : Type} {code : Byte} {dec : Dec α} {serve : α → State → Answer}
    (keeps : ∀ a t, EnablesKept t (serve a t).state) : EnablesKept s (takeRequest code dec serve s) := by
  unfold takeRequest
  split
  case h_1 => exact .refl s
  case h_2 f t start =>
    obtain ⟨rest, -, -, -, -, rfl⟩ := startable_spec start
    split
    case h_1 => exact ⟨rfl, rfl, rfl⟩
    case h_2 a _ => exact keeps a (s.taken rest)

theorem execLinkResetAssert_enablesKept {busy : Bool} (h : execLinkResetAssert busy s = .next u) : EnablesKept s u := by
  unfold execLinkResetAssert at h
  split_ifs at h <;> cases h <;> exact ⟨rfl, rfl, rfl⟩

end Sys2Proof.Machine

open Sys2Proof Sys2Proof.Machine in
/-- Settles O9. -/
theorem statusChangesAndAttentionAreReported : Obligations.StatusChangesAndAttentionAreReported := by
  refine ⟨⟨fun s f rest ready none => ?status, fun s f rest ready none => ⟨fun empty => ?empty, ?next⟩⟩,
    fun s f rest mask on ready fields => ?enables, ⟨rfl, rfl, rfl⟩, fun c u v reset h => ?kept⟩
  case status =>
    refine live_takeRequest_of_serve ready (decodeAll_dNone none) ?_
    simp only [accept, eStatus, eLaneMarks, eResident, eEnables, List.append_assoc]
    rfl
  case empty =>
    exact live_takeRequest_of_serve ready (decodeAll_dNone none) (serveChangeNext_empty empty)
  case next =>
    intro c cs changes
    refine live_takeRequest_of_serve ready (decodeAll_dNone none) ((serveChangeNext_cons (s := s.taken rest) changes).trans ?_)
    cases c with
    | visit v =>
      simp only [eChange, accept]
      change Answer.mk _ _ (e1 0 ++ ((s.visit v).map (eVisitSummary (s.taken rest) v)).getD [] ++ _) = _
      cases s.visit v with
      | none => rfl
      | some x =>
        simp only [Option.map_some, Option.getD_some, eVisitSummary, eReasons, ← standing_eq]
        rfl
    | lane n =>
      simp only [eChange, accept, eLaneSummary, eLaneMarks, eResident, eFlags, List.append_assoc, List.cons_append]
      rfl
  case enables =>
    by_cases wide : 8 ≤ mask.toNat
    · simp only [if_pos wide]
      have undecoded : decodeAll (dMask 3) f.fields = none := fields ▸ decodeAll_dMask_wide wide
      cases on <;> exact (live_on ready.power _).trans (congrArg _ (takeRequest_undecoded ready undecoded))
    · simp only [if_neg wide]
      have decoded : decodeAll (dMask 3) f.fields = some mask.toNat := fields ▸ decodeAll_dMask (by omega)
      have taken : (s.taken rest).prst = false := ready.power
      cases on
      · exact live_takeRequest_of_serve ready decoded (serveEnables_taken taken false _)
      · exact live_takeRequest_of_serve ready decoded (serveEnables_taken taken true _)
  case kept =>
    simp only [List.mem_cons, List.not_mem_nil, or_false] at reset
    rcases reset with rfl | rfl | rfl | rfl
    · refine EnablesKept.live (takeRequest_enablesKept fun _ t => ?_) h
      rw [accept_state]
      exact .internal (.restart t)
    · exact execLinkResetAssert_enablesKept h
    · exact execLinkResetAssert_enablesKept h
    · cases h
      exact ⟨rfl, rfl, rfl⟩
end

section
/-!
PROOFS. The settings that a request replaces: the quotas (R37, R39, R40), the link flags (R57), the points (R44 to R48),
the lane mode (R81) and the settings of R70, R97, R114, R140 and R141. What the end of an event may do to the signs
(R188, R191), said once.
-/

namespace Sys2Proof.Machine

variable {s t u : State} {f : ReqFrame} {rest : List ReqFrame}

/-! ### The end of an event at the signs (R188, R191) -/

theorem Sign.MayStart.refl (g : Sign) : g.MayStart g := .inl rfl

/-- A started job is not started again. -/
theorem Sign.MayStart.trans {a b c : Sign} (h : a.MayStart b) (g : b.MayStart c) : a.MayStart c := by
  rcases g with rfl | ⟨idle, starts⟩
  · exact h
  · rcases h with rfl | ⟨-, ⟨j, sending⟩, -⟩
    · exact .inr ⟨idle, starts⟩
    · rw [idle] at sending
      cases sending

theorem SignsMayStart.refl (s : State) : SignsMayStart s s := fun _ => .refl _

theorem SignsMayStart.trans (h : SignsMayStart s t) (g : SignsMayStart t u) : SignsMayStart s u :=
  fun n => (h n).trans (g n)

/-- The signs before an event's end are read alone. -/
theorem SignsMayStart.of_signs (h : SignsMayStart u t) (same : u.signs = s.signs) : SignsMayStart s t := by
  intro n
  have eq : s.sign n = u.sign n := by simp only [State.sign, same]
  rw [eq]
  exact h n

/-- One sign's due job starts, or nothing changes. -/
theorem startJobOn_eq (refresh : Bool) (n : Lane) (s : State) :
    startJobOn refresh n s = { s with signs := (startJobOn refresh n s).signs } := by
  unfold startJobOn
  split
  · split <;> rfl
  · rfl

theorem startJobOn_mayStart (refresh : Bool) (n : Lane) (s : State) : SignsMayStart s (startJobOn refresh n s) := by
  unfold startJobOn
  split
  case isFalse => exact .refl s
  case isTrue idle =>
    split
    case h_2 => exact .refl s
    case h_1 first lines _ =>
      intro m
      by_cases same : m = n
      · subst same
        simp only [State.beginJob, modSign_sign_same]
        exact .inr ⟨idle, ⟨_, rfl⟩, rfl⟩
      · simp only [State.beginJob, modSign_sign_other _ _ same]
        exact .refl _

theorem foldl_startJobOn (l : List Lane) (s : State) :
    let t := l.foldl (fun t n => startJobOn false n t) s
    t = { s with signs := t.signs } ∧ SignsMayStart s t := by
  induction l generalizing s with
  | nil => exact ⟨rfl, .refl s⟩
  | cons n l ih =>
    obtain ⟨frame, starts⟩ := ih (startJobOn false n s)
    exact ⟨frame.trans (congrArg (fun u : State => { u with signs := (l.foldl (fun t n => startJobOn false n t) (startJobOn false n s)).signs }) (startJobOn_eq false n s)),
      (startJobOn_mayStart false n s).trans starts⟩

/-- The end of an event changes the signs alone. -/
theorem startJobs_eq (s : State) : s.startJobs = { s with signs := s.startJobs.signs } :=
  (foldl_startJobOn _ s).1

theorem startJobs_mayStart (s : State) : SignsMayStart s s.startJobs := (foldl_startJobOn _ s).2

/-- The owner's state of a request that ends with the jobs due: as the owner left it, but for the signs. -/
theorem startJobs_spec (same : u.signs = s.signs) :
    u.startJobs = { u with signs := u.startJobs.signs } ∧ SignsMayStart s u.startJobs :=
  ⟨startJobs_eq u, (startJobs_mayStart u).of_signs same⟩

/-! ### The quotas (R37, R39, R40) -/

theorem decodeAll_dWindowSet {start : Nat} {a b c d : Option Nat} (first : start < 4294967296)
    (h : ∀ q ∈ [a, b, c, d], ∀ n ∈ q, n < 65536) :
    decodeAll dWindowSet (e4 start ++ eOpt e2 a ++ eOpt e2 b ++ eOpt e2 c ++ eOpt e2 d) = some (start, [a, b, c, d]) := by
  apply decodeAll_of_run_nil
  simp only [dWindowSet, dRepeat, List.append_assoc, run_bind, run_d4 _ _ first, run_dOpt_d2 _ _ (h a (by simp)),
    run_dOpt_d2 _ _ (h b (by simp)), run_dOpt_d2 _ _ (h c (by simp)), run_dOpt_d2 _ _ (h d (by simp)),
    Option.bind_some, run_pure]

theorem decodeAll_dQuotas {a b c d : Nat} (h : ∀ n ∈ [a, b, c, d], n < 65536) :
    decodeAll dQuotas (e2 a ++ e2 b ++ e2 c ++ e2 d) = some ⟨a, b, c, d⟩ := by
  apply decodeAll_of_run_nil
  simp only [dQuotas, List.append_assoc, run_bind, run_d2 _ _ (h a (by simp)), run_d2 _ _ (h b (by simp)),
    run_d2 _ _ (h c (by simp)), run_d2 _ _ (h d (by simp)), Option.bind_some, run_pure]

theorem any_above_iff {l : List (Option Nat)} {k : Nat} :
    l.any (·.any (k < ·)) = true ↔ ∃ q ∈ l, ∃ n ∈ q, k < n := by
  simp [Option.any_eq_true]

section
variable {start : Nat} {q : List (Option Nat)}

theorem serveWindowSet_of_outOfRange (h : ∃ p ∈ q, ∃ n ∈ p, 999 < n) :
    serveWindowSet (start, q) s = refuse s .badParam := by
  simp only [serveWindowSet, if_pos (any_above_iff.2 h)]

theorem serveWindowSet_of_missing (h : ¬ ∃ p ∈ q, ∃ n ∈ p, 999 < n) (missing : s.ring.find start = none) :
    serveWindowSet (start, q) s = refuse s .noSuchWindow := by
  simp only [serveWindowSet, if_neg (mt any_above_iff.1 h), missing]

theorem serveWindowSet_of_found (h : ¬ ∃ p ∈ q, ∃ n ∈ p, 999 < n) {w : Window} (found : s.ring.find start = some w) :
    serveWindowSet (start, q) s = accept { s with ring := s.ring.modWindow start fun w => w.setQuotas q } [] := by
  simp only [serveWindowSet, if_neg (mt any_above_iff.1 h), found]

end

theorem anyKind_iff {a b c d : Nat} :
    (allKinds.any fun k => 999 < (⟨a, b, c, d⟩ : PerKind).get k) = true ↔ ∃ n ∈ [a, b, c, d], 999 < n := by
  change (decide (999 < a) || (decide (999 < b) || (decide (999 < c) || (decide (999 < d) || false)))) = true ↔ _
  simp

theorem minuteBytes_of_le {k m : Nat} (h : m ≤ 4294967295) : minuteBytes k m = e4 m :=
  if_pos h

theorem serveWindowQuery_of_missing {start : Nat} (h : s.ring.find start = none) :
    serveWindowQuery (some start) s = refuse s .noSuchWindow := by
  simp only [serveWindowQuery, h]

theorem serveWindowQuery_of_found {start : Nat} {w : Window} (h : s.ring.find start = some w) :
    serveWindowQuery (some start) s = accept { s with free := s.free + 8 } (eWindow s.ring s.free w) := by
  simp only [serveWindowQuery, h]

theorem serveWindowQuery_of_empty (h : s.ring.windows = []) :
    serveWindowQuery none s = refuse s .noSuchWindow := by
  simp [serveWindowQuery, h]

theorem serveWindowQuery_plan (h : s.ring.windows ≠ []) : serveWindowQuery none s = accept s (ePlan s) := by
  simp [serveWindowQuery, h]

theorem decodeAll_dOpt_d4 {start : Nat} (h : start < 4294967296) :
    decodeAll (dOpt d4) (0x01#8 :: e4 start) = some (some start) :=
  decodeAll_of_run_nil (run_dOpt_d4 (some start) [] (by simpa using h))

theorem decodeAll_dOpt_none {α : Type} (d : Dec α) : decodeAll (dOpt d) [0x00#8] = some none := rfl

/-! ### The link flags (R57) -/

theorem decodeAll_dFlagsClear (n : Lane) {mask : Byte} (h : mask.toNat < 16) :
    decodeAll dFlagsClear [laneByte n, mask] = some (n.val + 1, mask.toNat) := by
  rw [laneByte_cons, ← toNat_e1 mask]
  apply decodeAll_of_run_nil
  simp only [dFlagsClear, List.append_assoc, run_bind, run_d1 _ _ (laneNumber_lt n), run_dMask 4 _ _ h mask.isLt,
    Option.bind_some, run_pure]

theorem decodeAll_dFlagsClear_wide (n : Lane) {mask : Byte} (h : 16 ≤ mask.toNat) :
    decodeAll dFlagsClear [laneByte n, mask] = none := by
  rw [laneByte_cons, ← toNat_e1 mask, ← List.append_nil (e1 mask.toNat)]
  simp only [decodeAll, dFlagsClear, run_bind, run_d1 _ _ (laneNumber_lt n), run_dMask_wide (k := 4) _ h mask.isLt,
    Option.bind_some, Option.bind_none]

end Sys2Proof.Machine

open Sys2Proof Sys2Proof.Machine in
/-- Settles O16. -/
theorem quotaRequestsReplaceQuotasAndQueriesReportThem : Obligations.QuotaRequestsReplaceQuotasAndQueriesReportThem := by
  refine ⟨fun s f rest => ⟨fun start a b c d ready first quotas fields => ?set,
    fun a b c d ready quotas fields => ?defaults⟩, fun s f rest ready => ⟨fun start first fields missing => ?missing,
      fun w found fields encoded => ?window, fun fields empty => ?empty, fun first newest fields head last => ?plan⟩⟩
  case set =>
    have decoded := fields ▸ decodeAll_dWindowSet first quotas
    by_cases bad : ∃ q ∈ [a, b, c, d], ∃ n ∈ q, 999 < n
    · rw [if_pos bad]
      exact live_takeRequest_of_serve ready decoded (serveWindowSet_of_outOfRange bad)
    · rw [if_neg bad]
      by_cases missing : ∀ w ∈ s.ring.windows, w.start ≠ start
      · rw [if_pos missing]
        exact live_takeRequest_of_serve ready decoded
          (serveWindowSet_of_missing (s := s.taken rest) bad (Ring.find_eq_none_iff.2 missing))
      · rw [if_neg missing]
        obtain ⟨w, found⟩ := Option.ne_none_iff_exists'.1 (mt Ring.find_eq_none_iff.1 missing)
        exact live_takeRequest_of_serve ready decoded (serveWindowSet_of_found (s := s.taken rest) bad found)
  case defaults =>
    have decoded := fields ▸ decodeAll_dQuotas quotas
    by_cases bad : ∃ n ∈ [a, b, c, d], 999 < n
    · rw [if_pos bad]
      exact live_takeRequest_of_serve ready decoded (if_pos (anyKind_iff.2 bad))
    · rw [if_neg bad]
      exact live_takeRequest_of_serve ready decoded (if_neg (mt anyKind_iff.1 bad))
  case missing =>
    exact live_takeRequest_of_serve ready (fields ▸ decodeAll_dOpt_d4 first)
      (serveWindowQuery_of_missing (s := s.taken rest) (Ring.find_eq_none_iff.2 missing))
  case window =>
    have decoded : decodeAll (dOpt d4) f.fields = some (some w.start) := fields ▸ decodeAll_dOpt_d4 (by omega)
    refine live_takeRequest_of_serve ready decoded ((serveWindowQuery_of_found (s := s.taken rest) found).trans ?_)
    have ends : w.start + s.ring.span ≤ 4294967295 := by omega
    change Answer.mk _ _ (eWindow s.ring _ w) = _
    simp [eWindow, minuteBytes_of_le ends, Ring.retireMinute, minuteBytes_of_le encoded, allKinds, PerKind.get,
      State.taken]
  case empty =>
    exact live_takeRequest_of_serve ready (fields ▸ decodeAll_dOpt_none d4)
      (serveWindowQuery_of_empty (s := s.taken rest) empty)
  case plan =>
    have windows : s.ring.windows ≠ [] := by rintro none; simp [none] at head
    refine live_takeRequest_of_serve ready (fields ▸ decodeAll_dOpt_none d4)
      ((serveWindowQuery_plan (s := s.taken rest) windows).trans ?_)
    change Answer.mk _ _ (ePlan s) = _
    simp [ePlan, head, last, allKinds, PerKind.get]

open Sys2Proof Sys2Proof.Machine in
/-- Settles O26. -/
theorem flagsClearClearsTheNamedFlags : Obligations.FlagsClearClearsTheNamedFlags := by
  refine ⟨fun s f rest n mask ready fields => ?_, fun s f rest lane mask ready fields bad => ?_⟩
  · by_cases wide : 16 ≤ mask.toNat
    · simp only [if_pos wide]
      exact (live_on ready.power _).trans
        (congrArg _ (takeRequest_undecoded ready (fields ▸ decodeAll_dFlagsClear_wide n wide)))
    · simp only [if_neg wide]
      refine live_takeRequest_of_serve ready (fields ▸ decodeAll_dFlagsClear n (by omega)) ?_
      rw [onLane_number]
      simp only [serveFlagsClear, accept, modLane_lane_same, eFlags]
      rfl
  · exact takeRequest_badLane (get := Prod.fst) (fun _ => yields_bind fun _ => yields_pure rfl) ready fields bad
end

section
/-!
PROOFS. The points (R44 to R48, R66), the lane mode (R81) and the settings of R70, R97, R114, R140 and R141.
-/

namespace Sys2Proof.Machine

variable {s t u : State} {f : ReqFrame} {rest : List ReqFrame} {n : Lane}

/-! ### The resident visit and the lane state (R64, R65) -/

theorem residentVisit_eq_some {v : Fin 64} {x : Visit} : s.residentVisit n = some (v, x) ↔ s.Resident n v x := by
  simp only [State.residentVisit, State.Resident, Option.bind_eq_some_iff, Option.map_eq_some_iff, Prod.mk.injEq]
  constructor
  · rintro ⟨w, resident, y, visit, rfl, rfl⟩
    exact ⟨resident, visit⟩
  · rintro ⟨resident, visit⟩
    exact ⟨v, resident, x, visit, rfl, rfl⟩

theorem residentIn_eq_some {st : VisitState} {v : Fin 64} {x : Visit} :
    s.residentIn n st = some (v, x) ↔ s.Resident n v x ∧ x.state = st := by
  simp only [State.residentIn, Option.filter_eq_some_iff, residentVisit_eq_some, beq_iff_eq]

theorem State.Resident.residentIn {v : Fin 64} {x : Visit} (h : s.Resident n v x) : s.residentIn n x.state = some (v, x) :=
  residentIn_eq_some.2 ⟨h, rfl⟩

theorem residentIn_isSome {st : VisitState} :
    (s.residentIn n st).isSome = true ↔ ∃ v x, s.Resident n v x ∧ x.state = st := by
  rw [Option.isSome_iff_exists]
  constructor
  · rintro ⟨⟨v, x⟩, found⟩
    exact ⟨v, x, residentIn_eq_some.1 found⟩
  · rintro ⟨v, x, found⟩
    exact ⟨(v, x), residentIn_eq_some.2 found⟩

/-- The visit of a lane is one. -/
theorem State.Resident.unique {v w : Fin 64} {x y : Visit} (h : s.Resident n v x) (g : s.Resident n w y) :
    v = w ∧ x = y := by
  have same := (residentVisit_eq_some.2 h).symm.trans (residentVisit_eq_some.2 g)
  simpa using same

theorem laneState_of_resident {v : Fin 64} (h : (s.lane n).resident = some v) : s.laneState n = .occupied := by
  simp [State.laneState, h]

theorem laneState_of_releasing (h : (s.lane n).resident = none) (releasing : (s.lane n).releasing = true) :
    s.laneState n = .releasing := by
  simp [State.laneState, h, releasing]

/-- The lane has no resident visit and is not RELEASING. -/
def State.LaneEmpty (s : State) (n : Lane) : Prop := (s.lane n).resident = none ∧ (s.lane n).releasing = false

section
variable (h : s.LaneEmpty n)
include h

/-- An empty lane is as its mode and the free count say (R65). -/
theorem laneState_of_auto (mode : (s.lane n).mode = .auto) :
    s.laneState n = if s.freeCount = 0 then .blocked else .idle := by
  simp [State.laneState, h.1, h.2, mode]

theorem laneState_of_manual (mode : (s.lane n).mode = .manual) : s.laneState n = .idle := by
  simp [State.laneState, h.1, h.2, mode]

theorem laneState_of_closed (mode : (s.lane n).mode = .closed) : s.laneState n = .closed := by
  simp [State.laneState, h.1, h.2, mode]

end

/-! ### The commands of the points (R45, R66) -/

/-- A truck is let out of the lane. -/
def State.LetsOut (s : State) (n : Lane) : Prop :=
  s.laneState n = .releasing ∨ ∃ v x, s.Resident n v x ∧ x.state = .releasing

/-- A truck is let into the lane. -/
def State.LetsIn (s : State) (n : Lane) : Prop :=
  s.laneState n = .idle ∨ ∃ v x, s.Resident n v x ∧ x.state = .entering ∧ (s.lane n).entryCleared = false

theorem command_of_resident {v : Fin 64} {x : Visit} (h : s.Resident n v x) :
    s.command n = if x.state = .releasing then rowLeave
      else if x.state = .entering ∧ (s.lane n).entryCleared = false then rowEnter else rowStop := by
  simp only [State.command, laneState_of_resident h.1, residentVisit_eq_some.2 h]
  cases x.state <;> cases (s.lane n).entryCleared <;> rfl

theorem command_of_letsOut (h : s.LetsOut n) : s.command n = rowLeave := by
  rcases h with out | ⟨v, x, resident, releasing⟩
  · simp only [State.command, out]
  · rw [command_of_resident resident, if_pos releasing]

theorem command_of_letsIn (h : s.LetsIn n) : s.command n = rowEnter := by
  rcases h with idle | ⟨v, x, resident, entering, uncleared⟩
  · simp only [State.command, idle]
  · rw [command_of_resident resident, if_neg (by simp [entering]), if_pos ⟨entering, uncleared⟩]

theorem command_of_neither (out : ¬ s.LetsOut n) (into : ¬ s.LetsIn n) : s.command n = rowStop := by
  cases visit : s.residentVisit n with
  | some p =>
    obtain ⟨v, x⟩ := p
    have resident := residentVisit_eq_some.1 visit
    rw [command_of_resident resident, if_neg fun releasing => out (.inr ⟨v, x, resident, releasing⟩),
      if_neg fun entering => into (.inr ⟨v, x, resident, entering⟩)]
  | none =>
    unfold State.command
    split
    case h_1 idle => exact absurd (.inl idle) into
    case h_2 => rfl
    case h_3 => rfl
    case h_4 releasing => exact absurd (.inl releasing) out
    case h_5 => simp only [visit]

/-- What the sequencer commands says whether a truck is let in or out. -/
theorem command_eq_rowLeave_iff : s.command n = rowLeave ↔ s.LetsOut n := by
  refine ⟨fun command => by_contra fun out => ?_, command_of_letsOut⟩
  by_cases into : s.LetsIn n
  · rw [command_of_letsIn into] at command
    cases command
  · rw [command_of_neither out into] at command
    cases command

theorem command_eq_rowEnter_iff : s.command n = rowEnter ↔ s.LetsIn n := by
  refine ⟨fun command => by_contra fun into => ?_, command_of_letsIn⟩
  by_cases out : s.LetsOut n
  · rw [command_of_letsOut out] at command
    cases command
  · rw [command_of_neither out into] at command
    cases command

/-- The sequencer commands one of three rows. -/
theorem command_cases (s : State) (n : Lane) :
    s.command n = rowEnter ∨ s.command n = rowStop ∨ s.command n = rowLeave := by
  by_cases out : s.LetsOut n
  · exact .inr (.inr (command_of_letsOut out))
  · by_cases into : s.LetsIn n
    · exact .inl (command_of_letsIn into)
    · exact .inr (.inl (command_of_neither out into))

section
variable (power : s.prst = false) {p : Fin 7} (output : 3 ≤ p.val)
include power output

theorem lineLevel_of_auto (mode : (s.lane n).mode = .auto) : s.lineLevel n p = (s.command n).point p := by
  simp [State.lineLevel, Nat.not_lt.2 output, power, mode]

theorem lineLevel_of_manual (mode : (s.lane n).mode = .manual) :
    s.lineLevel n p = ((s.lane n).points[p].drive && (s.lane n).points[p].latch) := by
  simp [State.lineLevel, Nat.not_lt.2 output, power, mode]

theorem lineLevel_of_closed (mode : (s.lane n).mode = .closed) : s.lineLevel n p = rowStop.point p := by
  simp [State.lineLevel, Nat.not_lt.2 output, power, mode]

end

/-! ### POINT_WRITE and POINT_READ (R47, R48) -/

/-- A Boolean at its place in the enumeration OFF, ON. -/
theorem run_dOpt_switch (b : Option Bool) (more : List Byte) :
    (dOpt (dEnum [false, true])).run (eOpt (fun w : Bool => e1 (if w then 1 else 0)) b ++ more) = some (b, more) :=
  run_dOpt _ _ _ _ fun w _ r => run_dEnum _ _ w r (by cases w <;> rfl) (by cases w <;> decide)

theorem decodeAll_d1_lane (n : Lane) : decodeAll d1 [laneByte n] = some (n.val + 1) :=
  decodeAll_of_run_nil (run_d1 _ [] (laneNumber_lt n))

theorem decodeAll_dPointWrite (n : Lane) {p : Nat} (direction : Option Bool) {latch : Option Nat} (hp : p < 256)
    (hl : ∀ k ∈ latch, k < 256) :
    decodeAll dPointWrite (laneByte n :: e1 p ++ eOpt (fun b : Bool => e1 (if b then 1 else 0)) direction
      ++ eOpt e1 latch) = some ⟨n.val + 1, p, direction, latch⟩ := by
  rw [List.cons_append, List.cons_append, laneByte_cons]
  apply decodeAll_of_run_nil
  simp only [dPointWrite, List.append_assoc, run_bind, run_d1 _ _ (laneNumber_lt n), run_d1 _ _ hp, run_dOpt_switch,
    run_dOpt_d1 _ _ hl, Option.bind_some, run_pure]

theorem servePointWrite_of_outOfRange {r : PointReq} (h : 6 < r.point ∨ ∃ k ∈ r.latch, 1 < k) :
    servePointWrite n r s = refuse s .badParam := by
  unfold servePointWrite
  split
  case isFalse => rfl
  case isTrue point =>
    refine if_neg fun latches => ?_
    rcases h with beyond | ⟨k, given, beyond⟩
    · omega
    · rw [Option.mem_def.1 given, Option.all_some, decide_eq_true_eq] at latches
      omega

theorem servePointWrite_of_inRange {r : PointReq} (hp : r.point < 7) (hl : ∀ k ∈ r.latch, k ≤ 1) :
    let t := s.modLane n fun l => { l with
      points := l.points.set r.point (l.points[r.point].write ⟨r.point, hp⟩ r.direction (r.latch.map (· == 1))) }
    servePointWrite n r s = accept t (ePoint t n ⟨r.point, hp⟩) := by
  have latches : r.latch.all (· ≤ 1) = true := by simpa [Option.all_eq_true] using hl
  simp only [servePointWrite, dif_pos hp, if_pos latches]
  rfl

/-! ### LANE_MODE (R81) -/

theorem manualTaken_iff : s.manualTaken n = true ↔
    (s.lane n).mode = .manual ∨ s.LaneEmpty n ∨ ∃ v x, s.Resident n v x ∧ x.state = .held := by
  rw [State.manualTaken, Bool.or_eq_true, beq_iff_eq]
  refine or_congr Iff.rfl ?_
  cases resident : (s.lane n).resident with
  | some v =>
    rw [laneState_of_resident resident]
    simp [residentIn_isSome, State.LaneEmpty, resident]
  | none =>
    have absent : ¬ ∃ v x, s.Resident n v x ∧ x.state = .held := by
      rintro ⟨v, x, ⟨there, -⟩, -⟩
      simp [resident] at there
    cases releasing : (s.lane n).releasing with
    | true => simp [laneState_of_releasing resident releasing, State.LaneEmpty, releasing, absent]
    | false =>
      have vacant : s.LaneEmpty n := ⟨resident, releasing⟩
      simp only [vacant, true_or, iff_true]
      cases mode : (s.lane n).mode
      · rw [laneState_of_auto vacant mode]
        split_ifs <;> rfl
      · rw [laneState_of_manual vacant mode]
      · rw [laneState_of_closed vacant mode]

theorem decodeAll_dLaneMode (n : Lane) (m : Mode) :
    decodeAll dLaneMode (laneByte n :: e1 m.code) = some (n.val + 1, m) := by
  have mode : allModes[m.code]? = some m := by cases m <;> rfl
  have small : m.code < 256 := by cases m <;> decide
  rw [laneByte_cons]
  apply decodeAll_of_run_nil
  simp only [dLaneMode, List.append_assoc, run_bind, run_d1 _ _ (laneNumber_lt n), run_dEnum _ _ m _ mode small,
    Option.bind_some, run_pure]

/-- A request that its owner takes and that ends with the jobs due. -/
theorem ends_with_startJobs {α : Type} {code : Byte} {dec : Dec α} {serve : α → State → Answer} {a : α}
    {fields : List Byte} (ready : s.Ready code f rest) (decoded : decodeAll dec f.fields = some a)
    (answer : serve a (s.taken rest) = accept u.startJobs fields) (same : u.signs = s.signs) :
    ∃ t : State, live s (takeRequest code dec serve s) = .next (t.answered f .ok fields)
      ∧ t = { u with signs := t.signs } ∧ SignsMayStart s t :=
  ⟨u.startJobs, live_takeRequest_of_serve ready decoded answer, startJobs_spec same⟩

/-! ### The settings (R70, R97, R114) -/

theorem decodeAll_dLaneSet (n : Lane) {a b c d e g h i : Option Nat}
    (fit : ∀ q ∈ [a, b, c, d, e, g, h, i], ∀ k ∈ q, k < 65536) :
    decodeAll dLaneSet (laneByte n :: (eOpt e2 a ++ eOpt e2 b ++ eOpt e2 c ++ eOpt e2 d ++ eOpt e2 e ++ eOpt e2 g
      ++ eOpt e2 h ++ eOpt e2 i)) = some (n.val + 1, ⟨a, b, c, d, e, g, h, i⟩) := by
  rw [laneByte_cons]
  apply decodeAll_of_run_nil
  simp only [dLaneSet, List.append_assoc, run_bind, run_d1 _ _ (laneNumber_lt n), run_dOpt_d2 _ _ (fit a (by simp)),
    run_dOpt_d2 _ _ (fit b (by simp)), run_dOpt_d2 _ _ (fit c (by simp)), run_dOpt_d2 _ _ (fit d (by simp)),
    run_dOpt_d2 _ _ (fit e (by simp)), run_dOpt_d2 _ _ (fit g (by simp)), run_dOpt_d2 _ _ (fit h (by simp)),
    run_dOpt_d2 _ _ (fit i (by simp)), Option.bind_some, run_pure]

theorem decodeAll_dFloors {a b : Option Nat} (fit : ∀ q ∈ [a, b], ∀ k ∈ q, k < 256) :
    decodeAll dFloors (eOpt e1 a ++ eOpt e1 b) = some (a, b) := by
  apply decodeAll_of_run_nil
  simp only [dFloors, List.append_assoc, run_bind, run_dOpt_d1 _ _ (fit a (by simp)), run_dOpt_d1 _ _ (fit b (by simp)),
    Option.bind_some, run_pure]

theorem decodeAll_dSealSet {a : Option Nat} (b : Option Bool) (fit : ∀ k ∈ a, k < 256) :
    decodeAll dSealSet (eOpt e1 a ++ eOpt (fun w : Bool => e1 (if w then 1 else 0)) b) = some (a, b) := by
  apply decodeAll_of_run_nil
  simp only [dSealSet, List.append_assoc, run_bind, run_dOpt_d1 _ _ fit, run_dOpt_switch, Option.bind_some, run_pure]

theorem floorsAbove_iff {a b : Option Nat} :
    (a.any (100 < ·) || b.any (100 < ·)) = true ↔ ∃ q ∈ [a, b], ∃ k ∈ q, 100 < k := by
  simp [Option.any_eq_true]

theorem floorAbove_iff {a : Option Nat} : (a.any (100 < ·)) = true ↔ ∃ k ∈ a, 100 < k := by
  simp [Option.any_eq_true]

/-! ### MIX_SET (R140) -/

/-- The request of MIX_SET as its parameters are numbered. -/
def mixReq (q : Fin 9 → Option Int) (w th : Fin 3 → Option Nat) (floor k : Option Nat) : MixReq :=
  ⟨⟨q 0, q 1, q 2⟩, ⟨q 3, q 4, q 5⟩, ⟨q 6, q 7, q 8⟩, w 0, w 1, w 2, th 0, th 1, th 2, floor, k⟩

section
variable {q : Fin 9 → Option Int} {w th : Fin 3 → Option Nat} {floor k : Option Nat}

theorem decodeAll_dMix (entries : ∀ i, ∀ z ∈ q i, -32768 ≤ z ∧ z < 32768) (weights : ∀ i, ∀ z ∈ w i, z < 256)
    (thresholds : ∀ i, ∀ z ∈ th i, z < 65536) (hf : ∀ z ∈ floor, z < 256) (hk : ∀ z ∈ k, z < 256) :
    decodeAll dMix (((List.finRange 9).flatMap fun i => eOpt e2signed (q i))
      ++ ((List.finRange 3).flatMap fun i => eOpt e1 (w i)) ++ ((List.finRange 3).flatMap fun i => eOpt e2 (th i))
      ++ eOpt e1 floor ++ eOpt e1 k) = some (mixReq q w th floor k) := by
  apply decodeAll_of_run_nil
  rw [show List.finRange 9 = [0, 1, 2, 3, 4, 5, 6, 7, 8] from rfl, show List.finRange 3 = [0, 1, 2] from rfl]
  simp only [List.flatMap_cons, List.flatMap_nil, List.append_assoc, List.nil_append, dMix, dRow, run_bind,
    run_dOpt_d2signed _ _ (entries _), run_dOpt_d1 _ _ (weights _), run_dOpt_d2 _ _ (thresholds _), run_dOpt_d1 _ _ hf,
    run_dOpt_d1 _ _ hk, Option.bind_some, run_pure]
  rfl

theorem mixReq_ok_iff : (mixReq q w th floor k).ok = true ↔
    ¬ ((∃ i, ∃ z ∈ q i, z < -8192 ∨ 8191 < z) ∨ (∃ i, ∃ z ∈ w i, 15 < z) ∨ (∃ z ∈ floor, 100 < z)
      ∨ ∃ z ∈ k, z < 1 ∨ 15 < z) := by
  simp only [mixReq, MixReq.ok, RowReq.ok, entryOk, Bool.and_eq_true, Option.all_eq_true, decide_eq_true_eq, not_or,
    not_exists, not_and, not_lt, Fin.forall_fin_succ, IsEmpty.forall_iff, and_true]
  simp only [and_assoc]
  rfl

theorem mixReq_isEmpty_iff : (mixReq q w th floor k).isEmpty = true ↔
    ¬ ((∃ i, q i ≠ none) ∨ (∃ i, w i ≠ none) ∨ (∃ i, th i ≠ none) ∨ floor ≠ none ∨ k ≠ none) := by
  simp only [MixReq.isEmpty, mixReq, beq_iff_eq, MixReq.mk.injEq, RowReq.mk.injEq, not_or, not_exists, not_not,
    Fin.forall_fin_succ, IsEmpty.forall_iff, and_true, and_assoc]
  rfl

end

theorem thresholdsOk_iff {p : Params} :
    p.thresholdsOk = true ↔ 1 ≤ p.t1 ∧ p.t1 < p.t2 ∧ p.t2 < p.t3 ∧ p.t3 ≤ 1023 := by
  simp [Params.thresholdsOk, and_assoc]

theorem gradingOpen_iff : s.gradingOpen = true ↔ ∃ n v x, s.Resident n v x ∧ x.grading ≠ .closed := by
  simp [State.gradingOpen, Option.any_eq_true, residentVisit_eq_some]

/-! ### GRADER_STATUS (R141) -/

theorem foldl_modGrade (g : GradeLane → GradeLane) (l : List Lane) (nodup : l.Nodup) (s : State) :
    let t := l.foldl (fun t n => t.modGrade n g) s
    t = { s with grader := { s.grader with lanes := t.grader.lanes } }
      ∧ ∀ n : Lane, t.grader.lanes[n] = if n ∈ l then g s.grader.lanes[n] else s.grader.lanes[n] := by
  induction l generalizing s with
  | nil => simp
  | cons m l ih =>
    obtain ⟨fresh, nodup⟩ := List.nodup_cons.1 nodup
    obtain ⟨frame, lanes⟩ := ih nodup (s.modGrade m g)
    refine ⟨frame, fun n => (lanes n).trans ?_⟩
    by_cases same : n = m
    · subst same
      rw [modGrade_same]
      simp [fresh]
    · rw [modGrade_other _ g same]
      simp [same]

theorem clearCounts_spec (s : State) :
    s.clearCounts = { s with grader := { s.grader with lanes := s.clearCounts.grader.lanes } }
      ∧ ∀ n : Lane, s.clearCounts.grader.lanes[n] = { s.grader.lanes[n] with superseded := 0, late := 0 } := by
  obtain ⟨frame, lanes⟩ := foldl_modGrade (fun g => { g with superseded := 0, late := 0 }) _ (List.nodup_finRange 12) s
  exact ⟨frame, fun n => (lanes n).trans (if_pos (List.mem_finRange n))⟩

theorem eFlag_eq (b : Bool) : eFlag b = e1 (if b then 1 else 0) := by cases b <;> rfl

end Sys2Proof.Machine

open Sys2Proof Sys2Proof.Machine in
/-- Settles O25: the sequencer commands one of three rows, by what the lane lets in or out. -/
theorem pointsFollowTheLaneAndTheirRequests : Obligations.PointsFollowTheLaneAndTheirRequests := by
  refine ⟨fun s n power => ⟨fun auto => ?auto, fun closed => ?closed, fun manual p output =>
    lineLevel_of_manual power output manual⟩, fun s f rest n => ?requests⟩
  case auto =>
    have level (p : Fin 7) (output : 3 ≤ p.val) := lineLevel_of_auto power output auto
    rw [level 3 (by decide), level 4 (by decide), level 5 (by decide), level 6 (by decide)]
    refine ⟨Iff.trans ?_ command_eq_rowLeave_iff, Iff.trans ?_ command_eq_rowEnter_iff, ?_⟩
    all_goals rcases command_cases s n with row | row | row <;> rw [row] <;> decide
  case closed =>
    have level (p : Fin 7) (output : 3 ≤ p.val) := lineLevel_of_closed power output closed
    rw [level 3 (by decide), level 4 (by decide), level 5 (by decide), level 6 (by decide)]
    decide
  case requests =>
    intro point
    refine ⟨fun p direction latch ready hp hl fields => ⟨fun outside => ?_, fun inside latches => ?_⟩,
      fun ready fields => ?_⟩
    · refine live_takeRequest_of_serve ready (fields ▸ decodeAll_dPointWrite n direction hp hl) ?_
      rw [onLane_number]
      exact servePointWrite_of_outOfRange outside
    · intro old new t
      refine live_takeRequest_of_serve ready (fields ▸ decodeAll_dPointWrite n direction hp hl) ?_
      rw [onLane_number, servePointWrite_of_inRange inside latches]
      rfl
    · refine live_takeRequest_of_serve ready (fields ▸ decodeAll_d1_lane n) ?_
      rw [onLane_number]
      rfl

open Sys2Proof Sys2Proof.Machine in
/-- Settles O30. -/
theorem laneModeChangesTheMode : Obligations.LaneModeChangesTheMode := by
  intro s f rest n m ready fields empty held becomes leaves
  have decoded := fields ▸ decodeAll_dLaneMode n m
  refine ⟨?auto, ?taken, ?refused, ?closing, ?closed⟩
  case auto =>
    rintro rfl
    refine ends_with_startJobs ready decoded (u := (s.taken rest).setMode n .auto) ?_ rfl
    rw [onLane_number]
    rfl
  case taken =>
    rintro rfl may
    have may : (s.taken rest).manualTaken n = true := manualTaken_iff.2 may
    refine ends_with_startJobs ready decoded (u := ((s.taken rest).setMode n .manual).leaveWait n) ?_ rfl
    rw [onLane_number, serveLaneMode]
    exact if_pos may
  case refused =>
    rintro rfl other occupied unheld
    have may : ¬ (s.taken rest).manualTaken n = true := fun may =>
      (manualTaken_iff.1 may).elim other fun h => h.elim occupied unheld
    refine live_takeRequest_of_serve ready decoded ?_
    rw [onLane_number, serveLaneMode]
    exact if_neg may
  case closing =>
    rintro rfl occupied
    have busy : (((s.taken rest).lane n).resident.isSome || ((s.taken rest).lane n).releasing) = true := by
      change ((s.lane n).resident.isSome || (s.lane n).releasing) = true
      cases resident : (s.lane n).resident with
      | some v => rfl
      | none => simpa using fun quiet => occupied ⟨resident, quiet⟩
    refine ends_with_startJobs ready decoded
      (u := ((s.taken rest).modLane n fun l => { l with closing := true }).leaveWait n) ?_ rfl
    rw [onLane_number, serveLaneMode]
    exact if_pos busy
  case closed =>
    rintro rfl ⟨vacant, quiet⟩
    have idle : ¬ (((s.taken rest).lane n).resident.isSome || ((s.taken rest).lane n).releasing) = true := by
      change ¬ ((s.lane n).resident.isSome || (s.lane n).releasing) = true
      simp [vacant, quiet]
    have closes : (((s.taken rest).setMode n .closed).stopDwell n).leaveWait n =
        { s.taken rest with
          lanes := s.lanes.set n { s.lane n with mode := .closed, closing := false, dwell := .stopped }
          openWait := leaves } := by
      simp [State.leaveWait, State.stopDwell, State.setMode, State.modLane, State.lane, leaves, State.taken]
    have ends := ends_with_startJobs ready decoded (serve := fun r t => onLane r.1 t fun n => serveLaneMode n r.2 t)
      (u := (((s.taken rest).setMode n .closed).stopDwell n).leaveWait n) (fields := [])
      (by rw [onLane_number, serveLaneMode]; exact if_neg idle) rfl
    rw [closes] at ends
    exact ends

open Sys2Proof Sys2Proof.Machine in
/-- Settles O31. -/
theorem settingsAreReplacedAndReported : Obligations.SettingsAreReplacedAndReported := by
  refine ⟨fun s f rest n a b c d e g h i ready fit fields => ?lane,
    fun s f rest => ⟨fun a b ready fit fields => ?check, fun a b ready fit fields => ?seals⟩,
    fun s f rest => ?grader⟩
  case lane =>
    intro old set new
    have limits : ∀ given old, set given old = setLimit old given := by
      rintro (_ | _ | k) old
      · rfl
      · rfl
      · exact (Nat.max_eq_right (show 1 ≤ k + 1 by omega)).symm
    have applied : new = old.apply ⟨a, b, c, d, e, g, h, i⟩ := by simp only [new, limits, Limits.apply]
    refine live_takeRequest_of_serve ready (fields ▸ decodeAll_dLaneSet n fit) ?_
    rw [onLane_number]
    simp only [serveLaneSet, accept, modLane_lane_same, eLimits, applied]
    rfl
  case check =>
    have decoded := fields ▸ decodeAll_dFloors fit
    by_cases above : ∃ q ∈ [a, b], ∃ k ∈ q, 100 < k
    · rw [if_pos above]
      exact live_takeRequest_of_serve ready decoded (if_pos (floorsAbove_iff.2 above))
    · rw [if_neg above]
      exact live_takeRequest_of_serve ready decoded (if_neg (mt floorsAbove_iff.1 above))
  case seals =>
    have decoded := fields ▸ decodeAll_dSealSet b fit
    by_cases above : ∃ k ∈ a, 100 < k
    · rw [if_pos above]
      exact live_takeRequest_of_serve ready decoded (if_pos (floorAbove_iff.2 above))
    · rw [if_neg above]
      exact live_takeRequest_of_serve ready decoded (if_neg (mt floorAbove_iff.1 above))
  case grader =>
    intro params number
    refine ⟨fun q w th floor k ready entries weights thresholds hf hk fields => ?mix, fun clear ready fields => ?status⟩
    case mix =>
      intro p row new bad given grading
      have decoded := fields ▸ decodeAll_dMix entries weights thresholds hf hk
      have applied : s.grader.params.apply (mixReq q w th floor k) = new := rfl
      have bad_iff : (!(mixReq q w th floor k).ok || !new.thresholdsOk) = true ↔ bad := by
        rw [Bool.or_eq_true, Bool.not_eq_true', Bool.not_eq_true', ← Bool.not_eq_true, ← Bool.not_eq_true, mixReq_ok_iff,
          thresholdsOk_iff, not_not]
        simp only [bad, or_assoc]
      have given_iff : (!(mixReq q w th floor k).isEmpty && (s.taken rest).gradingOpen) = true ↔ given ∧ grading := by
        rw [Bool.and_eq_true, Bool.not_eq_true', ← Bool.not_eq_true, mixReq_isEmpty_iff, not_not, gradingOpen_iff]
        rfl
      refine ⟨fun isBad => ?_, fun fine isGiven isGrading => ?_, fun fine free => ?_⟩
      · refine live_takeRequest_of_serve ready decoded ?_
        exact if_pos (bad_iff.2 isBad)
      · refine live_takeRequest_of_serve ready decoded ?_
        exact (if_neg (mt bad_iff.1 fine)).trans (if_pos (given_iff.2 ⟨isGiven, isGrading⟩))
      · refine live_takeRequest_of_serve ready decoded ?_
        exact (if_neg (mt bad_iff.1 fine)).trans (if_neg (mt given_iff.1 free))
    case status =>
      have decoded : decodeAll (dEnum [true, false]) f.fields = some clear := by
        rw [fields]
        cases clear <;> rfl
      obtain ⟨frame, lanes⟩ := clearCounts_spec (s.taken rest)
      have position : ∀ p, number p = ePos p := by rintro (_ | _) <;> rfl
      refine ⟨if clear then (s.taken rest).clearCounts else s.taken rest, ?answer, ?frame, ?lanes⟩
      case answer =>
        refine live_takeRequest_of_serve ready decoded ?_
        simp only [accept, eGrader, eGradeLane, position, eFlag_eq, List.append_assoc]
        rfl
      case frame =>
        cases clear
        · rfl
        · exact frame
      case lanes =>
        cases clear
        · exact fun n => rfl
        · exact lanes
end

section
/-!
PROOFS. The booking requests: their start (R203, R219), the engines' searches (R9, R124), BOOK_CREATE (R12), BOOK_QUERY
and BOOK_SCAN (R16, R17).
-/

namespace Sys2Proof.Machine

variable {s : State} {f : ReqFrame} {rest : List ReqFrame}

/-! ### Texts as received (R219) -/

section
variable {α β : Type} {d : Dec α} {e : β → List Byte} {g : β → α}

/-- An optional field whose decoder changes the value it reads. -/
theorem run_dOpt_map {v : Option β} (h : ∀ b ∈ v, ∀ more, d.run (e b ++ more) = some (g b, more)) (more : List Byte) :
    (dOpt d).run (eOpt e v ++ more) = some (v.map g, more) := by
  cases v with
  | none => rfl
  | some b =>
    change ((d >>= fun a => pure (some a)) : Dec (Option α)).run (e b ++ more) = _
    rw [run_bind, h b rfl]
    rfl

theorem run_dRepeat_map {l : List β} (h : ∀ b ∈ l, ∀ more, d.run (e b ++ more) = some (g b, more)) (more : List Byte) :
    (dRepeat d l.length).run (l.flatMap e ++ more) = some (l.map g, more) := by
  induction l with
  | nil => rfl
  | cons b l ih =>
    have more' := ih fun c hc => h c (List.mem_cons_of_mem _ hc)
    simp only [List.length_cons, dRepeat, List.flatMap_cons, List.append_assoc, run_bind, h b List.mem_cons_self, more',
      Option.bind_some, run_pure, List.map_cons]

theorem run_dList_map {n : Nat} {l : List β} (fits : l.length ≤ n) (byte : l.length < 256)
    (h : ∀ b ∈ l, ∀ more, d.run (e b ++ more) = some (g b, more)) (more : List Byte) :
    (dList n d).run (eList e l ++ more) = some (l.map g, more) := by
  change (d1 >>= fun k => if k ≤ n then dRepeat d k else dFail : Dec (List α)).run _ = _
  rw [eList, List.append_assoc, run_bind, run_d1 _ _ byte]
  simp only [Option.bind_some, if_pos fits, run_dRepeat_map h more]

end

theorem run_dText_raw {raw : List Byte} (h : raw.length < 256) (more : List Byte) :
    dText.run (eRaw raw ++ more) = some (normalise raw, more) := by
  rw [eRaw, List.append_assoc]
  exact run_dText raw more h

theorem run_dOpt_dText {raw : Option (List Byte)} (h : ∀ t ∈ raw, t.length < 256) (more : List Byte) :
    (dOpt dText).run (eOpt eRaw raw ++ more) = some (raw.map normalise, more) :=
  run_dOpt_map (fun t ht more => run_dText_raw (h t ht) more) more

theorem run_seals {seals : Option (List (List Byte))} (h : ∀ l ∈ seals, l.length ≤ 3 ∧ ∀ t ∈ l, t.length < 256)
    (more : List Byte) :
    (dOpt (dList 3 dText)).run (eOpt (eList eRaw) seals ++ more) = some (seals.map (·.map normalise), more) := by
  refine run_dOpt_map (fun l hl more => ?_) more
  obtain ⟨few, short⟩ := h l hl
  exact run_dList_map few (by omega) (fun t ht more => run_dText_raw (short t ht) more) more

theorem run_declared (declared : Option Declared) (more : List Byte) :
    (dOpt (dEnum allDeclared)).run (eOpt (fun d : Declared => e1 d.code) declared ++ more) = some (declared, more) :=
  run_dOpt _ _ _ _ fun d _ r => run_dEnum _ _ d r (by cases d <;> rfl) (by cases d <;> decide)

theorem run_kind (kind : Kind) (more : List Byte) :
    (dEnum allKinds).run (e1 kind.code ++ more) = some (kind, more) :=
  run_dEnum _ _ kind more (by cases kind <;> rfl) (by cases kind <;> decide)

theorem run_filter (filter : Option BookingState) (more : List Byte) :
    (dEnum allFilters).run (e1 ((filter.map BookingState.code).getD 4) ++ more) = some (filter, more) := by
  refine run_dEnum _ _ filter more ?_ ?_
  all_goals rcases filter with _ | st
  all_goals first | rfl | (cases st <;> rfl) | decide | (cases st <;> decide)

/-! ### The booking requests at their start (R203) -/

/-- A decoder goes on behind what its first part reads. -/
theorem run_bind_of {α β : Type} {d : Dec α} {k : α → Dec β} {bytes more : List Byte} {a : α}
    (h : d.run bytes = some (a, more)) : (d >>= k).run bytes = (k a).run more := by
  rw [run_bind, h]
  rfl

/-- A booking request that starts is in execution (R203). -/
theorem live_takeBooking {code : Byte} {dec : Dec BookReq} {req : BookReq} (ready : s.Ready code f rest)
    (decoded : decodeAll dec f.fields = some req) :
    live s (takeBooking code dec s) = .next { s with link := { s.link with
      requests := rest, exec := some ⟨f.code, f.tag, false, .booking req⟩ } } := by
  rw [live_on ready.power, takeBooking_ready ready decoded]
  rfl

section
variable {ref : List Byte} (short : ref.length < 256)
include short

theorem decodeAll_dRef_raw (req : Text → BookReq) : decodeAll (dRef req) (eRaw ref) = some (req (normalise ref)) := by
  apply decodeAll_of_run_nil
  rw [show dRef req = (dText >>= fun ref => pure (req ref)) from rfl, run_bind, run_dText_raw short]
  rfl

theorem decodeAll_dCreate {kind : Kind} {window teu : Nat} {container plate : Option (List Byte)}
    {seals : Option (List (List Byte))} {declared : Option Declared} {group block : Option Nat}
    (hw : window < 4294967296) (ht : teu < 256) (hg : ∀ n ∈ group, n < 256) (hb : ∀ n ∈ block, n < 256)
    (hc : ∀ t ∈ container, t.length < 256) (hp : ∀ t ∈ plate, t.length < 256)
    (hs : ∀ l ∈ seals, l.length ≤ 3 ∧ ∀ t ∈ l, t.length < 256) :
    decodeAll dCreate (eRaw ref ++ e1 kind.code ++ e4 window ++ e1 teu ++ eOpt eRaw container ++ eOpt eRaw plate
      ++ eOpt (eList eRaw) seals ++ eOpt (fun d : Declared => e1 d.code) declared ++ eOpt e1 group ++ eOpt e1 block)
    = some (.create ⟨normalise ref, kind, window, teu, container.map normalise, plate.map normalise,
        seals.map (·.map normalise), declared, group, block⟩) := by
  apply decodeAll_of_run_nil
  simp only [List.append_assoc]
  exact (run_bind_of (run_dText_raw short _)).trans <| (run_bind_of (run_kind _ _)).trans <|
    (run_bind_of (run_d4 _ _ hw)).trans <| (run_bind_of (run_d1 _ _ ht)).trans <|
    (run_bind_of (run_dOpt_dText hc _)).trans <| (run_bind_of (run_dOpt_dText hp _)).trans <|
    (run_bind_of (run_seals hs _)).trans <| (run_bind_of (run_declared _ _)).trans <|
    (run_bind_of (run_dOpt_d1 _ _ hg)).trans <| (run_bind_of (run_dOpt_d1 _ _ hb)).trans rfl

theorem decodeAll_dAmend {window : Option Nat} {plateByte : List Byte} {change : PlateChange}
    {seals : Option (List (List Byte))} {declared : Option Declared} {group block teu : Option Nat}
    {container : Option (List Byte)} (hw : ∀ n ∈ window, n < 4294967296)
    (hg : ∀ n ∈ group, n < 256) (hb : ∀ n ∈ block, n < 256) (ht : ∀ n ∈ teu, n < 256)
    (hc : ∀ t ∈ container, t.length < 256) (hs : ∀ l ∈ seals, l.length ≤ 3 ∧ ∀ t ∈ l, t.length < 256)
    (plate : ∀ more, dPlateChange.run (plateByte ++ more) = some (change, more)) :
    decodeAll dAmend (eRaw ref ++ eOpt e4 window ++ plateByte ++ eOpt (eList eRaw) seals
      ++ eOpt (fun d : Declared => e1 d.code) declared ++ eOpt e1 group ++ eOpt e1 block ++ eOpt e1 teu
      ++ eOpt eRaw container)
    = some (.amend ⟨normalise ref, window, change, seals.map (·.map normalise), declared, group, block, teu,
        container.map normalise⟩) := by
  apply decodeAll_of_run_nil
  simp only [List.append_assoc]
  exact (run_bind_of (run_dText_raw short _)).trans <| (run_bind_of (run_dOpt_d4 _ _ hw)).trans <|
    (run_bind_of (plate _)).trans <| (run_bind_of (run_seals hs _)).trans <|
    (run_bind_of (run_declared _ _)).trans <| (run_bind_of (run_dOpt_d1 _ _ hg)).trans <|
    (run_bind_of (run_dOpt_d1 _ _ hb)).trans <| (run_bind_of (run_dOpt_d1 _ _ ht)).trans <|
    (run_bind_of (run_dOpt_dText hc _)).trans rfl

end

/-- The plate of a BOOK_AMEND, unchanged or given. -/
theorem run_dPlateChange {plate : Option (List Byte)} (h : ∀ t ∈ plate, t.length < 256) (more : List Byte) :
    dPlateChange.run (eOpt eRaw plate ++ more) =
      some ((plate.map (PlateChange.value ∘ normalise)).getD .unchanged, more) := by
  cases plate with
  | none => rfl
  | some raw =>
    change ((dText >>= fun t => pure (PlateChange.value t)) : Dec PlateChange).run (eRaw raw ++ more) = _
    rw [run_bind, run_dText_raw (h raw rfl)]
    rfl

theorem decodeAll_dScan (filter : Option BookingState) {start : Nat} (h : start < 65536) :
    decodeAll dScan (e1 ((filter.map BookingState.code).getD 4) ++ e2 start) = some (.scan filter start) := by
  apply decodeAll_of_run_nil
  simp only [dScan, List.append_assoc, run_bind, run_filter, run_d2 _ _ h, Option.bind_some, run_pure]

/-! ### The engines' searches (R9, R124) -/

/-- The first element of a cyclic order that has a property. -/
theorem find?_cyclic {n : Nat} {p : Fin (n + 1) → Bool} {start k : Fin (n + 1)} (holds : p (start + k) = true)
    (first : ∀ j < k, ¬ p (start + j) = true) :
    ((List.finRange (n + 1)).map fun i => start + i).find? p = some (start + k) := by
  rw [List.find?_map, Option.map_eq_some_iff]
  refine ⟨k, ?_, rfl⟩
  rw [List.find?_eq_some_iff_getElem]
  refine ⟨holds, k.val, by simp; omega, by simp, fun j before => ?_⟩
  simpa using first ⟨j, by omega⟩ before

theorem find?_cyclic_none {n : Nat} {p : Fin (n + 1) → Bool} (start : Fin (n + 1)) (h : ∀ r, ¬ p r = true) :
    ((List.finRange (n + 1)).map fun i => start + i).find? p = none :=
  List.find?_eq_none.2 fun r _ => h r

theorem booking_eq_some {l : Link} {e : Execution} {req : BookReq} :
    l.booking = some (e, req) ↔ l.exec = some e ∧ e.work = .booking req := by
  unfold Link.booking
  constructor
  · intro h
    split at h
    · split at h <;> cases h
      exact ⟨by assumption, by assumption⟩
    · cases h
  · rintro ⟨exec, work⟩
    simp only [exec, work]

/-- A requester of the index engine waits (R9): SLK with a booking request, or a lane with an identification. -/
theorem requests_iff (s : State) (r : Fin 13) : s.requests r = true ↔
    (r = 0 ∧ ∃ e req, s.link.exec = some e ∧ e.work = .booking req)
      ∨ ∃ n : Lane, r = n.succ ∧ s.engine.waiting[n] ≠ none := by
  induction r using Fin.cases with
  | zero =>
    have slk : s.requests 0 = s.link.booking.isSome := rfl
    rw [slk, Option.isSome_iff_exists]
    simp [booking_eq_some, (Fin.succ_ne_zero _).symm]
  | succ n =>
    have lane : s.requests n.succ = s.engine.waiting[n].isSome := rfl
    rw [lane, Option.isSome_iff_ne_none]
    simp [Fin.succ_ne_zero, Fin.succ_inj]

theorem grant_of_busy (h : s.engine.inFlight ≠ none) : s.grant = s := if_pos (Option.isSome_iff_ne_none.2 h)

theorem grant_of_idle (h : ∀ r, ¬ s.requests r = true) : s.grant = s := by
  have none : s.nextGrant = none := find?_cyclic_none _ h
  unfold State.grant
  rw [none]
  exact ite_self s

theorem grant_of_first (free : s.engine.inFlight = none) {k : Fin 13}
    (asks : s.requests (s.engine.lastGranted + 1 + k) = true)
    (first : ∀ j < k, ¬ s.requests (s.engine.lastGranted + 1 + j) = true) :
    s.grant = s.grantTo (s.engine.lastGranted + 1 + k) := by
  have next : s.nextGrant = some (s.engine.lastGranted + 1 + k) := find?_cyclic asks first
  simp only [State.grant, free, Option.isSome_none, Bool.false_eq_true, if_false, next]

theorem grantTo_lane {n : Lane} {op : Ident} (h : s.engine.waiting[n] = some op) :
    s.grantTo n.succ = { s with engine := ⟨n.succ, some (.lane n op), s.engine.waiting.set n none⟩ } := by
  unfold State.grantTo
  rw [dif_pos (by simp)]
  change (match s.engine.waiting[n] with
    | some op => { s with engine := ⟨n.succ, some (.lane n op), s.engine.waiting.set n none⟩ }
    | none => s) = _
  rw [h]

theorem gradingTake_of_busy (h : s.grader.inFlight ≠ none) : s.gradingTake = s :=
  if_pos (Option.isSome_iff_ne_none.2 h)

theorem gradingTake_of_empty (h : ∀ n : Lane, s.grader.lanes[n].pending = none) : s.gradingTake = s := by
  have none : (lanesAfter s.grader.lastServed).find? (fun n => (s.grader.lanes[n].pending).isSome) = none :=
    find?_cyclic_none _ fun n : Lane => by rw [h n]; exact Bool.false_ne_true
  unfold State.gradingTake
  rw [none]
  exact ite_self s

theorem gradingTake_of_first (free : s.grader.inFlight = none) {k : Fin 12} {c : Scan}
    (pending : s.grader.lanes[s.grader.lastServed + 1 + k].pending = some c)
    (first : ∀ j < k, s.grader.lanes[s.grader.lastServed + 1 + j].pending = none) :
    let n : Lane := s.grader.lastServed + 1 + k
    s.gradingTake = { s with grader := { s.grader with
      inFlight := some (n, c)
      lastServed := n
      lanes := s.grader.lanes.set n { s.grader.lanes[n] with pending := none } } } := by
  have next : (lanesAfter s.grader.lastServed).find? (fun n => (s.grader.lanes[n].pending).isSome)
      = some (s.grader.lastServed + 1 + k) :=
    find?_cyclic (by rw [pending]; rfl) fun j before => by rw [first j before]; exact Bool.false_ne_true
  simp only [State.gradingTake, free, Option.isSome_none, Bool.false_eq_true, if_false, next, pending]

/-! ### BOOK_CREATE (R12) -/

section
variable {r : CreateReq}

theorem container_booking (r : CreateReq) : r.booking.container = r.container := rfl

theorem createCheck_of_illFormed (h : r.booking.wellFormed = false) : createCheck s r = some .badParam := by
  simp [createCheck, h]

theorem any_badCheckDigit_of_sound (digit : ∀ c ∈ r.container, containerCheck c ≠ .badCheckDigit) :
    r.container.any (containerCheck · == .badCheckDigit) = false :=
  Bool.eq_false_iff.2 fun bad => by
    obtain ⟨c, given, bad⟩ := any_badCheckDigit_iff.1 bad
    exact digit c given bad

section
variable (formed : r.booking.wellFormed = true)
include formed

theorem createCheck_of_badDigit (h : ∃ c ∈ r.container, containerCheck c = .badCheckDigit) :
    createCheck s r = some .badCheckDigit := by
  have bad := any_badCheckDigit_iff.2 h
  simp only [createCheck, formed, container_booking, bad, Bool.not_true, Bool.false_eq_true, if_false, if_true]

variable (digit : ∀ c ∈ r.container, containerCheck c ≠ .badCheckDigit)
include digit

theorem createCheck_of_known (h : (s.book.lookup r.ref).isSome = true) : createCheck s r = some .exists_ := by
  simp only [createCheck, formed, container_booking, any_badCheckDigit_of_sound digit, h, Bool.not_true,
    Bool.false_eq_true, if_false, if_true]

variable (unknown : s.book.lookup r.ref = none)
include unknown

theorem createCheck_of_missing (h : s.ring.find r.window = none) : createCheck s r = some .noSuchWindow := by
  simp only [createCheck, formed, container_booking, any_badCheckDigit_of_sound digit, unknown, h,
    Option.isSome_none, Bool.not_true, Bool.false_eq_true, if_false]

theorem createCheck_of_window {w : Window} (h : s.ring.find r.window = some w) :
    createCheck s r = if !w.hasRoom r.kind then some .windowFull
      else if Config.bookSlots ≤ s.book.live then some .tableFull else none := by
  simp only [createCheck, formed, container_booking, any_badCheckDigit_of_sound digit, unknown, h,
    Option.isSome_none, Bool.not_true, Bool.false_eq_true, if_false]

end

theorem completeCreate_of_refused {code : Result} (h : createCheck s r = some code) :
    completeCreate s r = refuse s code := by
  unfold completeCreate
  rw [h]

theorem completeCreate_of_taken (h : createCheck s r = none) :
    completeCreate s r = ⟨{ s with
      book := s.book.insert (tableLowestFree 0 s.book.records) r.booking
      ring := s.ring.addBooked r.window r.kind }, .ok, e2 (tableLowestFree 0 s.book.records)⟩ := by
  unfold completeCreate
  rw [h]

/-- The checks read nothing that the engine's release changes. -/
theorem complete_create_refused {e : Execution} {code : Result} (h : s.Completing e (.create r))
    (refused : createCheck s r = some code) : exec .indexOperationComplete s = .next (s.completed e code []) :=
  complete_of_refuse h (completeCreate_of_refused (s := s.engineFree) refused)

end

/-! ### BOOK_QUERY and BOOK_SCAN (R16, R17) -/

theorem completeQuery_of_error {ref : Text} {code : Result} (h : findBooking s ref = .error code) :
    completeQuery s ref = refuse s code := by
  simp [completeQuery, h]

theorem completeQuery_of_found {ref : Text} {slot : Nat} {b : Booking} (h : s.Finds ref slot b) :
    completeQuery s ref = ⟨s, .ok, e2 slot ++ eBooking b⟩ := by
  simp [completeQuery, h.findBooking_eq]

section
variable {α : Type} {k : Nat} {v : α} {l : List (Nat × α)}

/-- A table's entries are what its lookups find. -/
theorem tableFind_of_mem (wf : tableWf l) (h : (k, v) ∈ l) : tableFind k l = some v := by
  induction l with
  | nil => cases h
  | cons p l ih =>
    obtain ⟨a, w⟩ := p
    rw [tableWf, List.pairwise_cons] at wf
    obtain ⟨least, wf⟩ := wf
    rcases List.mem_cons.1 h with same | h
    · cases same
      simp [tableFind]
    · have : a < k := least _ h
      simp only [tableFind, if_neg (Nat.ne_of_lt this), ih wf h]

/-- The first entry of a table that has a property, by its key. -/
theorem find?_of_tableFind (wf : tableWf l) (found : tableFind k l = some v) {p : Nat × α → Bool}
    (holds : p (k, v) = true) (first : ∀ j w, j < k → tableFind j l = some w → ¬ p (j, w) = true) :
    l.find? p = some (k, v) := by
  obtain ⟨before, after, split, -, -⟩ := table_split wf found
  rw [List.find?_eq_some_iff_append]
  refine ⟨holds, before, after, split, fun q mem => ?_⟩
  have lower : q.1 < k := by
    rw [split, tableWf, List.pairwise_append] at wf
    exact wf.2.2 q mem (k, v) List.mem_cons_self
  have there : tableFind q.1 l = some q.2 := tableFind_of_mem wf (by rw [split]; exact List.mem_append_left _ mem)
  simpa using first q.1 q.2 lower there

end

theorem scanned_iff {filter : Option BookingState} {start k : Nat} {c : Booking} :
    (start ≤ k && filter.all (· == c.state)) = true ↔ start ≤ k ∧ ∀ st ∈ filter, st = c.state := by
  simp [Option.all_eq_true]

theorem completeScan_of_beyond {filter : Option BookingState} {start : Nat} (h : 8191 < start) :
    completeScan s filter start = refuse s .badParam := if_pos h

theorem completeScan_of_none {filter : Option BookingState} {start : Nat} (h : start ≤ 8191)
    (none : s.book.records.find? (fun p => start ≤ p.1 && filter.all (· == p.2.state)) = none) :
    completeScan s filter start = refuse s .notFound := by
  unfold completeScan
  rw [if_neg (show ¬ Config.bookSlots ≤ start from Nat.not_le.2 (Nat.lt_succ_of_le h)), none]

theorem completeScan_of_some {filter : Option BookingState} {start slot : Nat} {b : Booking} (h : start ≤ 8191)
    (found : s.book.records.find? (fun p => start ≤ p.1 && filter.all (· == p.2.state)) = some (slot, b)) :
    completeScan s filter start = ⟨s, .ok, e2 slot ++ eBooking b ++ e2 (slot + 1)⟩ := by
  unfold completeScan
  rw [if_neg (show ¬ Config.bookSlots ≤ start from Nat.not_le.2 (Nat.lt_succ_of_le h)), found]

end Sys2Proof.Machine

open Sys2Proof Sys2Proof.Machine in
/-- Settles O18. -/
theorem bookingRequestsWaitAndEnginesTakeTheNext : Obligations.BookingRequestsWaitAndEnginesTakeTheNext := by
  refine ⟨fun s f rest ref short => ?requests, fun s power => ?index, fun s power => ⟨fun busy => ?gradingBusy,
    fun empty => ?gradingIdle, fun k c free => ?gradingNext⟩⟩
  case requests =>
    intro starts
    refine ⟨fun ready fields => live_takeBooking ready (fields ▸ decodeAll_dRef_raw short _),
      fun ready fields => live_takeBooking ready (fields ▸ decodeAll_dRef_raw short _),
      fun ready fields => live_takeBooking ready (fields ▸ decodeAll_dRef_raw short _),
      fun filter start ready hs fields => live_takeBooking ready (fields ▸ decodeAll_dScan filter hs),
      fun kind window teu container plate seals declared group block ready hw ht hg hb hc hp hs fields =>
        live_takeBooking ready (fields ▸ decodeAll_dCreate short hw ht hg hb hc hp hs),
      fun window plate seals declared group block teu container ready hw hg hb ht hc hp hs => ?_⟩
    intro starts'
    exact ⟨fun fields => live_takeBooking ready
        (fields ▸ decodeAll_dAmend short hw hg hb ht hc hs (run_dPlateChange hp)),
      fun fields => live_takeBooking ready (fields ▸ decodeAll_dAmend short hw hg hb ht hc hs fun _ => rfl)⟩
  case index =>
    intro asks first
    have asks_iff (r : Fin 13) : s.requests r = true ↔ asks r := requests_iff s r
    have granted {r : Fin 13} (free : s.engine.inFlight = none) (is : first r) : s.grant = s.grantTo r := by
      obtain ⟨k, rfl, waits, before⟩ := is
      exact grant_of_first free ((asks_iff _).2 waits) fun j less => mt (asks_iff _).1 (before j less)
    refine ⟨fun busy => (live_on power _).trans (congrArg _ (grant_of_busy busy)),
      fun none => (live_on power _).trans (congrArg _ (grant_of_idle fun r => mt (asks_iff r).1 (none r))),
      fun free is => (live_on power _).trans (congrArg _ (granted free is)), fun n op free is waiting => ?_⟩
    exact (live_on power _).trans (congrArg _ ((granted free is).trans (grantTo_lane waiting)))
  case gradingBusy => exact (live_on power _).trans (congrArg _ (gradingTake_of_busy busy))
  case gradingIdle => exact (live_on power _).trans (congrArg _ (gradingTake_of_empty empty))
  case gradingNext =>
    intro n pending first
    exact (live_on power _).trans (congrArg _ (gradingTake_of_first free pending first))

open Sys2Proof Sys2Proof.Machine in
/-- Settles O19: each clause is one check of R12. -/
theorem bookCreateMakesTheLowestFreeSlotLive : Obligations.BookCreateMakesTheLowestFreeSlotLive := by
  intro s e r completing b answer
  refine ⟨fun illFormed => complete_create_refused completing (createCheck_of_illFormed illFormed),
    fun formed bad => complete_create_refused completing (createCheck_of_badDigit formed bad), fun formed digit => ?_⟩
  refine ⟨fun known => complete_create_refused completing (createCheck_of_known formed digit known), fun unknown =>
    ⟨fun missing => complete_create_refused completing
      (createCheck_of_missing formed digit unknown (Ring.find_eq_none_iff.2 missing)), fun w found => ?_⟩⟩
  have checks := createCheck_of_window formed digit unknown found
  refine ⟨fun full => ?_, fun room crowded => ?_, fun room places wf => ?_⟩
  · rw [if_pos (by simpa [Window.hasRoom] using full)] at checks
    exact complete_create_refused completing checks
  · rw [if_neg (by simpa [Window.hasRoom] using room), if_pos (show Config.bookSlots ≤ s.book.live from crowded)] at checks
    exact complete_create_refused completing checks
  · rw [if_neg (by simpa [Window.hasRoom] using room), if_neg (show ¬ Config.bookSlots ≤ s.book.live from Nat.not_le.2 places)] at checks
    obtain ⟨free, -, lowest⟩ := tableLowestFree_spec 0 s.book.records wf (fun _ _ => Nat.zero_le _)
    refine ⟨tableLowestFree 0 s.book.records, free, fun k less => lowest k (Nat.zero_le k) less,
      tableFind_tablePut_same _ _ _, ?_⟩
    exact complete_of_answer completing rfl (completeCreate_of_taken (s := s.engineFree) checks)

open Sys2Proof Sys2Proof.Machine in
/-- Settles O23. -/
theorem queryAndScanReportARecord : Obligations.QueryAndScanReportARecord := by
  intro s e slot b answer record
  refine ⟨fun ref completing => ⟨fun malformed => ?_, fun formed unknown => ?_, fun formed looked found => ?_⟩,
    fun filter start completing => ⟨fun beyond => ?_, fun within wf none => ?_, fun from_ within wf found matches_ first => ?_⟩⟩
  · exact complete_of_refuse completing (completeQuery_of_error (findBooking_of_malformed malformed))
  · exact complete_of_refuse completing (completeQuery_of_error (s := s.engineFree) (findBooking_of_unknown formed unknown))
  · refine complete_of_answer completing rfl ((completeQuery_of_found (State.Finds.engineFree ⟨formed, looked, found⟩)).trans ?_)
    simp [record, eBooking, eOpt]
  · exact complete_of_refuse completing (completeScan_of_beyond beyond)
  · refine complete_of_refuse completing (completeScan_of_none (s := s.engineFree) within (List.find?_eq_none.2 ?_))
    rintro ⟨k, c⟩ mem holds
    rw [scanned_iff] at holds
    obtain ⟨st, rfl, other⟩ := none k c holds.1 (tableFind_of_mem wf mem)
    exact other (holds.2 st rfl)
  · have first := find?_of_tableFind wf found (p := fun p => start ≤ p.1 && filter.all (· == p.2.state))
      (scanned_iff.2 ⟨from_, matches_⟩) fun k c less there holds => by
        rw [scanned_iff] at holds
        obtain ⟨st, rfl, other⟩ := first k c holds.1 less there
        exact other (holds.2 st rfl)
    refine complete_of_answer completing rfl ((completeScan_of_some (s := s.engineFree) within first).trans ?_)
    simp [record, eBooking, eOpt]
end

section
/-!
PROOFS. The booking index (R5 to R8): what a lookup, an insertion and a deletion do along a probe sequence. With an empty
bucket fixed, the buckets lie on a line on which every probe sequence is an interval: the empty bucket is at 0, and no
sequence passes it. The deletion's backward shift moves a hole up this line.
-/

namespace Sys2Proof.Machine

variable {b : Book} {ref : Text} {slot : Nat} {fuel n : Nat} {index : List (Nat × Nat)}

/-! ### Tables under a removal -/

section
variable {α : Type} {j k : Nat} {l : List (Nat × α)}

theorem tableFind_tableDel_same (wf : tableWf l) : tableFind k (tableDel k l) = none := by
  cases there : tableFind k l with
  | none =>
    rw [tableFind_eq_none_iff] at there ⊢
    exact fun p mem => there p (mem_tableDel mem)
  | some v =>
    obtain ⟨before, after, split, del, -⟩ := table_split wf there
    rw [split, tableWf, List.pairwise_append, List.pairwise_cons] at wf
    obtain ⟨-, ⟨above, -⟩, below⟩ := wf
    rw [del, tableFind_eq_none_iff]
    intro p mem
    rcases List.mem_append.1 mem with mem | mem
    · exact Nat.ne_of_lt (below p mem (k, v) List.mem_cons_self)
    · exact Nat.ne_of_gt (above p mem)

theorem tableFind_tableDel_other (h : j ≠ k) (l : List (Nat × α)) : tableFind j (tableDel k l) = tableFind j l := by
  induction l with
  | nil => rfl
  | cons p l ih =>
    obtain ⟨a, v⟩ := p
    by_cases same : a = k
    · subst same
      simp [tableDel, tableFind, h.symm]
    · simp [tableDel, tableFind, same, ih]

end

/-! ### Probe sequences -/

/-- A slot's record has a reference. -/
def Book.Matches (b : Book) (ref : Text) (slot : Nat) : Prop := ∃ q, tableFind slot b.records = some q ∧ q.ref = ref

theorem any_ref_iff : (tableFind slot b.records).any (·.ref == ref) = true ↔ b.Matches ref slot := by
  simp [Option.any_eq_true, Book.Matches]

/-- The probe's answer is the slot of the first bucket of the sequence that points to a record with the reference, when
no bucket before it is empty (R6). -/
theorem probe_eq_some_iff : probe b ref fuel n = some slot ↔
    ∃ i < fuel, tableFind (nextBucket^[i] n) b.index = some slot ∧ b.Matches ref slot
      ∧ ∀ j < i, ∃ k, tableFind (nextBucket^[j] n) b.index = some k ∧ ¬ b.Matches ref k := by
  induction fuel generalizing n with
  | zero => simp [probe]
  | succ fuel ih =>
    rw [probe]
    split
    case h_1 none =>
      refine ⟨fun h => (by cases h), ?_⟩
      rintro ⟨i, -, found, -, before⟩
      cases i with
      | zero => rw [Function.iterate_zero_apply, none] at found; cases found
      | succ i =>
        obtain ⟨k, there, -⟩ := before 0 (Nat.succ_pos i)
        rw [Function.iterate_zero_apply, none] at there
        cases there
    case h_2 k there =>
      split_ifs with matches_
      · rw [any_ref_iff] at matches_
        constructor
        · intro same
          cases same
          exact ⟨0, Nat.succ_pos _, there, matches_, fun j less => absurd less (Nat.not_lt_zero j)⟩
        · rintro ⟨i, -, found, -, before⟩
          cases i with
          | zero => exact there.symm.trans found
          | succ i =>
            obtain ⟨k', there', other⟩ := before 0 (Nat.succ_pos i)
            cases there.symm.trans there'
            exact absurd matches_ other
      · rw [any_ref_iff] at matches_
        rw [ih]
        constructor
        · rintro ⟨i, less, found, is, before⟩
          refine ⟨i + 1, by omega, found, is, fun j lower => ?_⟩
          cases j with
          | zero => exact ⟨k, there, matches_⟩
          | succ j => exact before j (by omega)
        · rintro ⟨i, less, found, is, before⟩
          cases i with
          | zero =>
            cases there.symm.trans found
            exact absurd is matches_
          | succ i => exact ⟨i, by omega, found, is, fun j lower => before (j + 1) (by omega)⟩

theorem homeBucket_lt (ref : Text) : homeBucket ref < 16384 := by
  unfold homeBucket
  generalize start : (0 : Nat) = h
  have bound : h < 16384 := by omega
  clear start
  induction ref generalizing h with
  | nil => exact bound
  | cons c ref ih => exact ih _ (Nat.mod_lt _ (by decide))

theorem nextBucket_eq (n : Nat) : nextBucket n = (n + 1) % 16384 := rfl

theorem iterate_nextBucket (h : n < 16384) (i : Nat) : nextBucket^[i] n = (n + i) % 16384 := by
  induction i with
  | zero => exact (Nat.mod_eq_of_lt h).symm
  | succ i ih =>
    rw [Function.iterate_succ_apply', ih, nextBucket_eq]
    omega

/-- A lookup runs through every bucket from the home bucket on (R6). -/
theorem lookup_eq_some_iff : b.lookup ref = some slot ↔
    ∃ i < 16384, tableFind ((homeBucket ref + i) % 16384) b.index = some slot ∧ b.Matches ref slot
      ∧ ∀ j < i, ∃ k, tableFind ((homeBucket ref + j) % 16384) b.index = some k ∧ ¬ b.Matches ref k := by
  have walk := iterate_nextBucket (homeBucket_lt ref)
  unfold Book.lookup
  rw [probe_eq_some_iff]
  simp only [walk]
  rfl

/-- The insertion's bucket is the first empty one of the sequence (R7). -/
theorem emptyBucket_spec (h : ∃ i < fuel, tableFind (nextBucket^[i] n) index = none) :
    ∃ i < fuel, emptyBucket index fuel n = nextBucket^[i] n ∧ tableFind (nextBucket^[i] n) index = none
      ∧ ∀ j < i, tableFind (nextBucket^[j] n) index ≠ none := by
  induction fuel generalizing n with
  | zero =>
    obtain ⟨i, less, -⟩ := h
    exact absurd less (Nat.not_lt_zero i)
  | succ fuel ih =>
    rw [emptyBucket]
    split_ifs with empty
    · exact ⟨0, Nat.succ_pos _, rfl, Option.isNone_iff_eq_none.1 empty, fun j less => absurd less (Nat.not_lt_zero j)⟩
    · rw [Option.isNone_iff_eq_none] at empty
      obtain ⟨i, less, none⟩ := h
      obtain ⟨i, rfl⟩ : ∃ k, i = k + 1 := by
        cases i with
        | zero => exact absurd none empty
        | succ k => exact ⟨k, rfl⟩
      obtain ⟨j, lower, is, none, before⟩ := ih ⟨i, by omega, none⟩
      refine ⟨j + 1, by omega, is, none, fun k less => ?_⟩
      cases k with
      | zero => exact empty
      | succ k => exact before k (by omega)

/-- With an empty bucket somewhere, an insertion finds one along the sequence (R7). -/
theorem insertion_spec (ref : Text) (h : ∃ n < 16384, tableFind n index = none) :
    ∃ i < 16384, emptyBucket index Config.buckets (homeBucket ref) = (homeBucket ref + i) % 16384
      ∧ tableFind ((homeBucket ref + i) % 16384) index = none
      ∧ ∀ j < i, tableFind ((homeBucket ref + j) % 16384) index ≠ none := by
  have walk := iterate_nextBucket (homeBucket_lt ref)
  have bound := homeBucket_lt ref
  obtain ⟨z, less, none⟩ := h
  have reached : nextBucket^[(z + 16384 - homeBucket ref) % 16384] (homeBucket ref) = z := by
    rw [walk]
    omega
  have spec := emptyBucket_spec (index := index) (fuel := Config.buckets) (n := homeBucket ref)
    ⟨(z + 16384 - homeBucket ref) % 16384, Nat.mod_lt _ (by decide), by rw [reached]; exact none⟩
  simp only [walk] at spec
  exact spec

/-! ### A record that joins the book (R7) -/

/-- What the probes of a book see of its buckets after an insertion under a new slot. -/
structure Book.Inserted (b : Book) (slot : Nat) (r : Booking) (bucket : Nat) : Prop where
  free : tableFind bucket b.index = none
  taken : tableFind bucket (b.insert slot r).index = some slot
  others : ∀ n ≠ bucket, tableFind n (b.insert slot r).index = tableFind n b.index
  record : tableFind slot (b.insert slot r).records = some r
  records : ∀ k ≠ slot, tableFind k (b.insert slot r).records = tableFind k b.records

theorem insert_spec (slot : Nat) (r : Booking) (h : ∃ n < 16384, tableFind n b.index = none) :
    ∃ i < 16384, b.Inserted slot r ((homeBucket r.ref + i) % 16384)
      ∧ ∀ j < i, tableFind ((homeBucket r.ref + j) % 16384) b.index ≠ none := by
  obtain ⟨i, less, bucket, free, before⟩ := insertion_spec r.ref h
  have index : (b.insert slot r).index = tablePut ((homeBucket r.ref + i) % 16384) slot b.index := by
    rw [← bucket]
    rfl
  refine ⟨i, less, ⟨free, ?_, fun n other => ?_, tableFind_tablePut_same _ _ _, fun k other => ?_⟩, before⟩
  · rw [index, tableFind_tablePut_same]
  · rw [index, tableFind_tablePut_other other]
  · exact tableFind_tablePut_other other _ _

section
variable {r : Booking} {bucket : Nat}

theorem Book.Inserted.matches_same (h : b.Inserted slot r bucket) : (b.insert slot r).Matches ref slot ↔ r.ref = ref := by
  simp [Book.Matches, h.record]

theorem Book.Inserted.matches_other (h : b.Inserted slot r bucket) {k : Nat} (other : k ≠ slot) :
    (b.insert slot r).Matches ref k ↔ b.Matches ref k := by
  simp [Book.Matches, h.records k other]

end

end Sys2Proof.Machine

open Sys2Proof Sys2Proof.Machine in
/-- Settles O20: a lookup's buckets are filled up to its answer, and the insertion fills an empty one. -/
theorem createdBookingIsFoundByItsReference : Obligations.CreatedBookingIsFoundByItsReference := by
  intro b slot r fresh room entries
  obtain ⟨i, less, inserted, before⟩ := insert_spec slot r room
  have entry {n k : Nat} (there : tableFind n b.index = some k) : k ≠ slot := (entries n k there).1
  refine ⟨?_, fun ref other => ?_⟩
  · refine lookup_eq_some_iff.2 ⟨i, less, inserted.taken, inserted.matches_same.2 rfl, fun j lower => ?_⟩
    obtain ⟨k, there⟩ := Option.ne_none_iff_exists'.1 (before j lower)
    have elsewhere : (homeBucket r.ref + j) % 16384 ≠ (homeBucket r.ref + i) % 16384 := fun same => by
      rw [same, inserted.free] at there
      cases there
    refine ⟨k, (inserted.others _ elsewhere).trans there, fun is => ?_⟩
    obtain ⟨apart, q, found, differs, -⟩ := entries _ k there
    obtain ⟨q', found', same⟩ := (inserted.matches_other apart).1 is
    cases found.symm.trans found'
    exact differs same
  · refine Option.ext fun k => ?_
    constructor
    · intro found
      obtain ⟨j, -, there, is, -⟩ := lookup_eq_some_iff.1 found
      by_cases at_ : (homeBucket ref + j) % 16384 = (homeBucket r.ref + i) % 16384
      · rw [at_, inserted.taken] at there
        cases there
        exact absurd (inserted.matches_same.1 is) other.symm
      · rw [inserted.others _ at_] at there
        obtain ⟨apart, q, live, -, looked⟩ := entries _ k there
        obtain ⟨q', live', rfl⟩ := (inserted.matches_other apart).1 is
        cases live.symm.trans live'
        exact looked
    · intro found
      obtain ⟨j, lower, there, is, sequence⟩ := lookup_eq_some_iff.1 found
      have filled {n k : Nat} (there : tableFind n b.index = some k) :
          tableFind n (b.insert slot r).index = some k := by
        refine (inserted.others n fun same => ?_).trans there
        rw [same, inserted.free] at there
        cases there
      refine lookup_eq_some_iff.2 ⟨j, lower, filled there, (inserted.matches_other (entry there)).2 is, fun m less => ?_⟩
      obtain ⟨k', there', differs⟩ := sequence m less
      exact ⟨k', filled there', mt (inserted.matches_other (entry there')).1 differs⟩
end

section
/-!
PROOFS. The booking index through an insertion and a deletion (R7, R8). With an empty bucket fixed, the buckets lie on a
line on which every probe sequence is an interval: the empty bucket is at 0, and no sequence passes it. The deletion's
backward shift moves a hole up this line until it meets an empty bucket.
-/

namespace Sys2Proof.Machine

variable {b : Book} {ref : Text} {slot : Nat} {fuel n z : Nat} {index : List (Nat × Nat)}

/-! ### The line of buckets from an empty one on -/

/-- What stands at a place of the line that begins at bucket `z`. -/
def line (z : Nat) (index : List (Nat × Nat)) (x : Nat) : Option Nat := tableFind ((z + x) % 16384) index

/-- The place of a bucket on the line that begins at bucket `z`. -/
def placeOf (z n : Nat) : Nat := (n + 16384 - z) % 16384

theorem placeOf_lt (z n : Nat) : placeOf z n < 16384 := Nat.mod_lt _ (by decide)

theorem bucket_placeOf (hz : z < 16384) (hn : n < 16384) : (z + placeOf z n) % 16384 = n := by
  unfold placeOf
  omega

theorem line_placeOf (hz : z < 16384) (hn : n < 16384) : line z index (placeOf z n) = tableFind n index := by
  rw [line, bucket_placeOf hz hn]

/-- The buckets at two places of the line are two. -/
theorem bucket_inj {x y : Nat} (hx : x < 16384) (hy : y < 16384) (h : (z + x) % 16384 = (z + y) % 16384) : x = y := by
  omega

/-- A place of the line holds a slot, and no place from the slot's home on, up to it, is empty. -/
structure Reached (g : Nat → Option Nat) (home k x : Nat) : Prop where
  bound : x < 16384
  holds : g x = some k
  above : home ≤ x
  filled : ∀ y, home ≤ y → y < x → g y ≠ none

/-- A probe sequence from a home bucket is an interval of the line: it cannot pass the empty bucket (R6). -/
theorem exists_reached_iff (hz : z < 16384) (empty : line z index 0 = none) {home k : Nat} (hh : home < 16384) :
    (∃ x, Reached (line z index) (placeOf z home) k x)
      ↔ ∃ i < 16384, tableFind ((home + i) % 16384) index = some k
        ∧ ∀ j < i, tableFind ((home + j) % 16384) index ≠ none := by
  have along (j : Nat) : tableFind ((home + j) % 16384) index = line z index ((placeOf z home + j) % 16384) := by
    have eq : (home + j) % 16384 = (z + (placeOf z home + j) % 16384) % 16384 := by
      unfold placeOf
      omega
    rw [line, ← eq]
  have bound := placeOf_lt z home
  constructor
  · rintro ⟨x, less, holds, above, filled⟩
    refine ⟨x - placeOf z home, by omega, ?_, fun j lower => ?_⟩
    · rw [along, show (placeOf z home + (x - placeOf z home)) % 16384 = x by omega]
      exact holds
    · rw [along, Nat.mod_eq_of_lt (by omega)]
      exact filled _ (by omega) (by omega)
  · rintro ⟨i, less, holds, filled⟩
    have inside : placeOf z home + i < 16384 := by
      by_contra beyond
      have wraps : (placeOf z home + (16384 - placeOf z home)) % 16384 = 0 := by omega
      have empty' : tableFind ((home + (16384 - placeOf z home)) % 16384) index = none := by rw [along, wraps, empty]
      rcases Nat.lt_or_eq_of_le (show 16384 - placeOf z home ≤ i by omega) with before | last
      · exact filled _ before empty'
      · rw [last, holds] at empty'
        cases empty'
    refine ⟨placeOf z home + i, inside, ?_, by omega, fun y above below => ?_⟩
    · rw [← Nat.mod_eq_of_lt inside, ← along]
      exact holds
    · have step := filled (y - placeOf z home) (by omega)
      rwa [along, show (placeOf z home + (y - placeOf z home)) % 16384 = y by omega] at step

/-! ### An index that is whole (R6) -/

/-- The index on a line: the slots of some set, each at one place that its home reaches. -/
structure Lined (g : Nat → Option Nat) (home : Nat → Nat) (live : Nat → Prop) : Prop where
  sound : ∀ x k, x < 16384 → g x = some k → live k
  once : ∀ x y k, x < 16384 → y < 16384 → g x = some k → g y = some k → x = y
  reached : ∀ k, live k → ∃ x, Reached g (home k) k x

/-- The slot's record is live. -/
def Book.Live (b : Book) (k : Nat) : Prop := (tableFind k b.records).isSome = true

/-- The place of a record's home bucket on the line. -/
def Book.homePlace (b : Book) (z k : Nat) : Nat := placeOf z (b.homeOf k)

theorem homeOf_of_found {k : Nat} {r : Booking} (h : tableFind k b.records = some r) :
    b.homeOf k = homeBucket r.ref := by
  simp [Book.homeOf, h]

theorem Book.Live.exists {k : Nat} (h : b.Live k) : ∃ r, tableFind k b.records = some r ∧ b.homeOf k = homeBucket r.ref := by
  obtain ⟨r, found⟩ := Option.isSome_iff_exists.1 h
  exact ⟨r, found, homeOf_of_found found⟩

/-- No two live records have the same reference (R1). -/
def Book.Distinct (b : Book) : Prop :=
  ∀ k k' r r', tableFind k b.records = some r → tableFind k' b.records = some r' → r.ref = r'.ref → k = k'

theorem Book.Indexed.distinct (h : b.Indexed) : b.Distinct := by
  intro k k' r r' found found' same
  have looked := h.found k r found
  rw [same, h.found k' r' found'] at looked
  exact (Option.some.inj looked).symm

/-- A whole index, seen on the line (R6). -/
theorem Book.Indexed.lined (h : b.Indexed) (hz : z < 16384) (empty : tableFind z b.index = none) :
    Lined (line z b.index) (b.homePlace z) b.Live where
  sound x k _ there := (h.entries _ _ there).2
  once x y k hx hy there there' := bucket_inj hx hy (h.once _ _ k there there')
  reached k live := by
    obtain ⟨r, found, home⟩ := live.exists
    have first : line z b.index 0 = none := by rwa [line, Nat.add_zero, Nat.mod_eq_of_lt hz]
    obtain ⟨i, less, there, -, filled⟩ := lookup_eq_some_iff.1 (h.found k r found)
    rw [Book.homePlace, home]
    refine (exists_reached_iff hz first (homeBucket_lt _)).2 ⟨i, less, there, fun j lower => ?_⟩
    obtain ⟨k', there', -⟩ := filled j lower
    rw [there']
    exact Option.some_ne_none k'

/-- From the line back to the index: every live record is found by its reference (R6). -/
theorem Lined.indexed (h : Lined (line z b.index) (b.homePlace z) b.Live) (hz : z < 16384)
    (empty : tableFind z b.index = none) (rising : tableWf b.index) (inside : ∀ n k, tableFind n b.index = some k → n < 16384)
    (distinct : b.Distinct) : b.Indexed where
  rising := rising
  entries n k there := by
    have bound := inside n k there
    refine ⟨bound, h.sound _ k (placeOf_lt z n) ?_⟩
    rw [line_placeOf hz bound, there]
  once n m k there there' := by
    have hn := inside n k there
    have hm := inside m k there'
    have same := h.once _ _ k (placeOf_lt z n) (placeOf_lt z m) ((line_placeOf hz hn).trans there)
      ((line_placeOf hz hm).trans there')
    rw [← bucket_placeOf hz hn, ← bucket_placeOf hz hm, same]
  found k r found := by
    have live : b.Live k := Option.isSome_iff_exists.2 ⟨r, found⟩
    have first : line z b.index 0 = none := by rwa [line, Nat.add_zero, Nat.mod_eq_of_lt hz]
    obtain ⟨x, reached⟩ := h.reached k live
    rw [Book.homePlace, homeOf_of_found found] at reached
    obtain ⟨i, less, there, filled⟩ := (exists_reached_iff hz first (homeBucket_lt _)).1 ⟨x, reached⟩
    refine lookup_eq_some_iff.2 ⟨i, less, there, ⟨r, found, rfl⟩, fun j lower => ?_⟩
    obtain ⟨k', there'⟩ := Option.ne_none_iff_exists'.1 (filled j lower)
    refine ⟨k', there', fun is => ?_⟩
    obtain ⟨r', found', same⟩ := is
    obtain rfl := distinct k' k r' r found' found same
    have hj := inside _ _ there'
    have hi := inside _ _ there
    have equal := h.once _ _ k' (placeOf_lt z _) (placeOf_lt z _) ((line_placeOf hz hj).trans there')
      ((line_placeOf hz hi).trans there)
    have buckets : (homeBucket r.ref + j) % 16384 = (homeBucket r.ref + i) % 16384 := by
      rw [← bucket_placeOf hz hj, ← bucket_placeOf hz hi, equal]
    omega

/-- The index of a book has an empty bucket: it has more buckets than the book has slots (R1, R6). -/
theorem Book.Indexed.exists_empty (h : b.Indexed) (kept : b.Kept) : ∃ n < 16384, tableFind n b.index = none := by
  by_contra full
  have filled (n : Fin 16384) : ∃ k : Fin 8192, tableFind n.val b.index = some k.val := by
    obtain ⟨k, there⟩ := Option.ne_none_iff_exists'.1 fun none => full ⟨n.val, n.isLt, none⟩
    obtain ⟨r, live⟩ := Option.isSome_iff_exists.1 (h.entries _ _ there).2
    exact ⟨⟨k, kept.slots _ (mem_of_tableFind live)⟩, there⟩
  choose slotAt there using filled
  have injective : Function.Injective slotAt := fun n m same =>
    Fin.ext (h.once _ _ _ (there n) (same ▸ there m))
  have := Fintype.card_le_of_injective slotAt injective
  rw [Fintype.card_fin, Fintype.card_fin] at this
  omega

/-! ### The insertion (R7) -/

theorem Book.Indexed.insert (h : b.Indexed) (kept : b.Kept) {slot : Nat} {r : Booking}
    (fresh : tableFind slot b.records = none) (new : b.lookup r.ref = none) : (b.insert slot r).Indexed := by
  obtain ⟨i, less, inserted, before⟩ := insert_spec slot r (h.exists_empty kept)
  have entry {n k : Nat} (there : tableFind n b.index = some k) : k ≠ slot := by
    rintro rfl
    have live := (h.entries n k there).2
    rw [fresh] at live
    cases live
  have filled {n k : Nat} (there : tableFind n b.index = some k) : tableFind n (b.insert slot r).index = some k := by
    refine (inserted.others n fun same => ?_).trans there
    rw [same, inserted.free] at there
    cases there
  have absent {k : Nat} {q : Booking} (found : tableFind k b.records = some q) : q.ref ≠ r.ref := by
    intro same
    have looked := h.found k q found
    rw [same, new] at looked
    cases looked
  refine ⟨tablePut_wf h.rising, fun n k there => ?_, fun n m k there there' => ?_, fun k q found => ?_⟩
  · by_cases at_ : n = (homeBucket r.ref + i) % 16384
    · subst at_
      cases inserted.taken.symm.trans there
      exact ⟨Nat.mod_lt _ (by decide), Option.isSome_iff_exists.2 ⟨r, inserted.record⟩⟩
    · rw [inserted.others n at_] at there
      rw [inserted.records k (entry there)]
      exact h.entries n k there
  · by_cases n_at : n = (homeBucket r.ref + i) % 16384 <;> by_cases m_at : m = (homeBucket r.ref + i) % 16384
    · rw [n_at, m_at]
    · subst n_at
      cases inserted.taken.symm.trans there
      rw [inserted.others m m_at] at there'
      exact absurd rfl (entry there')
    · subst m_at
      cases inserted.taken.symm.trans there'
      rw [inserted.others n n_at] at there
      exact absurd rfl (entry there)
    · rw [inserted.others n n_at] at there
      rw [inserted.others m m_at] at there'
      exact h.once n m k there there'
  · by_cases same : k = slot
    · subst same
      cases inserted.record.symm.trans found
      refine lookup_eq_some_iff.2 ⟨i, less, inserted.taken, inserted.matches_same.2 rfl, fun j lower => ?_⟩
      obtain ⟨k', there⟩ := Option.ne_none_iff_exists'.1 (before j lower)
      refine ⟨k', filled there, fun is => ?_⟩
      obtain ⟨q, found', same⟩ := (inserted.matches_other (entry there)).1 is
      exact absent found' same
    · rw [inserted.records k same] at found
      obtain ⟨j, lower, there, is, sequence⟩ := lookup_eq_some_iff.1 (h.found k q found)
      refine lookup_eq_some_iff.2 ⟨j, lower, filled there, (inserted.matches_other (entry there)).2 is, fun m less => ?_⟩
      obtain ⟨k', there', differs⟩ := sequence m less
      exact ⟨k', filled there', mt (inserted.matches_other (entry there')).1 differs⟩

/-! ### The deletion (R8) -/

/-- The index while a deletion shifts, on the line: place `i` is the hole (what stands there is stale), the places from
it to before `j` have been examined, and a slot past the hole that its sequence crosses has not. -/
structure Shifting (g : Nat → Option Nat) (home : Nat → Nat) (live : Nat → Prop) (i j : Nat) : Prop where
  empty : g 0 = none
  order : i < j
  bound : j ≤ 16384
  run : ∀ x, i ≤ x → x < j → g x ≠ none
  sound : ∀ x k, x < 16384 → x ≠ i → g x = some k → live k
  once : ∀ x y k, x < 16384 → y < 16384 → x ≠ i → y ≠ i → g x = some k → g y = some k → x = y
  reached : ∀ k, live k → ∃ x, x ≠ i ∧ Reached g (home k) k x ∧ (home k ≤ i → i < x → j ≤ x)

section
variable {g g' : Nat → Option Nat} {home : Nat → Nat} {live : Nat → Prop} {i j : Nat}

theorem Shifting.apart (h : Shifting g home live i j) : 0 ≠ i := by
  rintro rfl
  exact h.run 0 (Nat.le_refl 0) h.order h.empty

/-- A slot whose home lies between the hole and itself stays (R8). -/
theorem Shifting.stay (h : Shifting g home live i j) (more : j < 16384) {k : Nat} (there : g j = some k)
    (between : i < home k) : Shifting g home live i (j + 1) where
  empty := h.empty
  order := by have := h.order; omega
  bound := more
  run x above below := by
    rcases Nat.lt_or_eq_of_le (Nat.le_of_lt_succ below) with before | rfl
    · exact h.run x above before
    · rw [there]
      exact Option.some_ne_none k
  sound := h.sound
  once := h.once
  reached k' is := by
    obtain ⟨x, apart, reached, past⟩ := h.reached k' is
    refine ⟨x, apart, reached, fun crossed above => ?_⟩
    have := past crossed above
    have other : x ≠ j := by
      rintro rfl
      cases there.symm.trans reached.holds
      omega
    omega

/-- Any other slot moves into the hole, and its place is the hole then (R8). -/
theorem Shifting.move (h : Shifting g home live i j) (more : j < 16384) {k : Nat} (there : g j = some k)
    (outside : ¬ (i < home k ∧ home k ≤ j)) (filled : g' i = some k) (rest : ∀ x < 16384, x ≠ i → g' x = g x) :
    Shifting g' home live j (j + 1) := by
  have order := h.order
  have lower : i < 16384 := by omega
  have isLive : live k := h.sound j k more (by omega) there
  have elsewhere {x : Nat} (hx : x < 16384) (apart : x ≠ i) (other : x ≠ j) : g x ≠ some k := fun same =>
    other (h.once x j k hx more apart (by omega) same there)
  have kept {x : Nat} (hx : x < 16384) (full : g x ≠ none) : g' x ≠ none := by
    by_cases hole : x = i
    · rw [hole, filled]
      exact Option.some_ne_none k
    · rwa [rest x hx hole]
  refine ⟨(rest 0 (by omega) h.apart).trans h.empty, Nat.lt_succ_self j, more, fun x above below => ?_,
    fun x k' hx apart same => ?_, fun x y k' hx hy apart apart' same same' => ?_, fun k' is => ?_⟩
  · have only : x = j := by omega
    refine kept (by omega) ?_
    rw [only, there]
    exact Option.some_ne_none k
  · by_cases hole : x = i
    · rw [hole, filled] at same
      cases same
      exact isLive
    · rw [rest x hx hole] at same
      exact h.sound x k' hx hole same
  · by_cases hole : x = i <;> by_cases hole' : y = i
    · rw [hole, hole']
    · rw [hole, filled] at same
      cases same
      rw [rest y hy hole'] at same'
      exact absurd same' (elsewhere hy hole' apart')
    · rw [hole', filled] at same'
      cases same'
      rw [rest x hx hole] at same
      exact absurd same (elsewhere hx hole apart)
    · rw [rest x hx hole] at same
      rw [rest y hy hole'] at same'
      exact h.once x y k' hx hy hole hole' same same'
  · obtain ⟨x, apart, reached, -⟩ := h.reached k' is
    by_cases moved : k' = k
    · subst moved
      have at_ : x = j := h.once x j k' reached.bound more apart (by omega) reached.holds there
      subst at_
      have above : home k' ≤ i := by
        have := reached.above
        omega
      exact ⟨i, by omega, ⟨lower, filled, above, fun y from_ below => kept (by omega) (reached.filled y from_ (by omega))⟩,
        fun _ _ => by omega⟩
    · have other : x ≠ j := by
        rintro rfl
        cases there.symm.trans reached.holds
        exact moved rfl
      exact ⟨x, other, ⟨reached.bound, (rest x reached.bound apart).trans reached.holds, reached.above,
        fun y from_ below => kept (by have := reached.bound; omega) (reached.filled y from_ below)⟩, fun _ _ => by omega⟩

/-- At an empty bucket no sequence crosses the hole, and the deletion ends (R8). -/
theorem Shifting.ends (h : Shifting g home live i j) (last : j < 16384 → g j = none) (hole : g' i = none)
    (rest : ∀ x < 16384, x ≠ i → g' x = g x) : Lined g' home live := by
  refine ⟨fun x k hx same => ?_, fun x y k hx hy same same' => ?_, fun k is => ?_⟩
  · have apart : x ≠ i := by rintro rfl; rw [hole] at same; cases same
    rw [rest x hx apart] at same
    exact h.sound x k hx apart same
  · have apart : x ≠ i := by rintro rfl; rw [hole] at same; cases same
    have apart' : y ≠ i := by rintro rfl; rw [hole] at same'; cases same'
    rw [rest x hx apart] at same
    rw [rest y hy apart'] at same'
    exact h.once x y k hx hy apart apart' same same'
  · obtain ⟨x, apart, reached, past⟩ := h.reached k is
    refine ⟨x, reached.bound, (rest x reached.bound apart).trans reached.holds, reached.above, fun y from_ below => ?_⟩
    have aside : y ≠ i := by
      rintro rfl
      have := past from_ below
      have := reached.bound
      have stop := last (by omega)
      rcases Nat.lt_or_eq_of_le ‹j ≤ x› with before | same
      · exact reached.filled j (by have := h.order; omega) before stop
      · rw [same, reached.holds] at stop
        cases stop
    rw [rest y (by have := reached.bound; omega) aside]
    exact reached.filled y from_ below

end

/-- The hole and the examined bucket of R8, on the line. -/
theorem inInterval_iff {i j home : Nat} (hz : z < 16384) (order : i < j) (hj : j < 16384) (hh : home < 16384) :
    inInterval ((z + i) % 16384) ((z + j) % 16384) home = true ↔ i < placeOf z home ∧ placeOf z home ≤ j := by
  unfold inInterval placeOf Config.buckets
  dsimp only
  rw [Bool.and_eq_true, decide_eq_true_iff, decide_eq_true_iff]
  omega

theorem line_tablePut {i k x : Nat} (hi : i < 16384) (hx : x < 16384) (apart : x ≠ i) :
    line z (tablePut ((z + i) % 16384) k index) x = line z index x :=
  tableFind_tablePut_other (fun same => apart (bucket_inj hx hi same)) _ _

theorem line_tableDel {i x : Nat} (hi : i < 16384) (hx : x < 16384) (apart : x ≠ i) :
    line z (tableDel ((z + i) % 16384) index) x = line z index x :=
  tableFind_tableDel_other (fun same => apart (bucket_inj hx hi same)) _

/-- What the index is besides its line: its buckets rise and lie in the table. -/
def Bucketed (index : List (Nat × Nat)) : Prop := tableWf index ∧ ∀ p ∈ index, p.1 < 16384

theorem Bucketed.put (h : Bucketed index) {n k : Nat} (hn : n < 16384) : Bucketed (tablePut n k index) := by
  refine ⟨tablePut_wf h.1, fun p mem => ?_⟩
  rcases mem_tablePut mem with rfl | mem
  · exact hn
  · exact h.2 p mem

theorem Bucketed.del (h : Bucketed index) (n : Nat) : Bucketed (tableDel n index) :=
  ⟨tableDel_wf h.1, fun p mem => h.2 p (mem_tableDel mem)⟩

theorem homeOf_lt (b : Book) (k : Nat) : b.homeOf k < 16384 := by
  unfold Book.homeOf
  cases tableFind k b.records with
  | none => exact Nat.zero_lt_succ _
  | some r => exact homeBucket_lt _

/-- The deletion's end: the hole is emptied (R8). -/
theorem Shifting.finish {live : Nat → Prop} {home : Nat → Nat} {i j : Nat} (buckets : Bucketed index)
    (h : Shifting (line z index) home live i j) (last : j < 16384 → line z index j = none) :
    Lined (line z (tableDel ((z + i) % 16384) index)) home live ∧ Bucketed (tableDel ((z + i) % 16384) index)
      ∧ line z (tableDel ((z + i) % 16384) index) 0 = none := by
  have hi : i < 16384 := Nat.lt_of_lt_of_le h.order h.bound
  have rest : ∀ x < 16384, x ≠ i → line z (tableDel ((z + i) % 16384) index) x = line z index x :=
    fun x hx apart => line_tableDel hi hx apart
  exact ⟨h.ends last (tableFind_tableDel_same buckets.1) rest, buckets.del _, (rest 0 (by omega) h.apart).trans h.empty⟩

/-- The backward shift leaves the live slots' index (R8). -/
theorem backShift_lined {live : Nat → Prop} {i j : Nat} (hz : z < 16384) (enough : 16384 ≤ fuel + j)
    (buckets : Bucketed index) (h : Shifting (line z index) (b.homePlace z) live i j) :
    let left := backShift b fuel ((z + i) % 16384) ((z + j) % 16384) index
    Lined (line z left) (b.homePlace z) live ∧ Bucketed left ∧ line z left 0 = none := by
  induction fuel generalizing i j index with
  | zero => exact h.finish buckets fun more => by omega
  | succ fuel ih =>
    rw [backShift]
    split
    case h_1 none => exact h.finish buckets fun _ => none
    case h_2 k there =>
      have more : j < 16384 := by
        rcases Nat.lt_or_eq_of_le h.bound with more | rfl
        · exact more
        · have first : line z index 16384 = line z index 0 := by
            unfold line
            rw [Nat.add_mod_right, Nat.add_zero]
          cases there.symm.trans (first.trans h.empty)
      have hi : i < 16384 := Nat.lt_trans h.order more
      have next : nextBucket ((z + j) % 16384) = (z + (j + 1)) % 16384 := by
        rw [nextBucket_eq]
        omega
      have between_iff := inInterval_iff hz h.order more (homeOf_lt b k)
      rw [next]
      split_ifs with between
      · exact ih (by omega) buckets (h.stay more there (between_iff.1 between).1)
      · exact ih (by omega) (buckets.put (Nat.mod_lt _ (by decide)))
          (h.move more there (mt between_iff.2 between) (tableFind_tablePut_same _ _ _) fun x hx apart =>
            line_tablePut hi hx apart)

/-- The bucket of a slot, searched along its sequence. -/
theorem bucketOf_line {x y : Nat} (hx : x < 16384) (below : y ≤ x) (enough : x - y < fuel)
    (holds : line z index x = some slot) (filled : ∀ u, y ≤ u → u < x → line z index u ≠ none)
    (only : ∀ u, y ≤ u → u < x → line z index u ≠ some slot) :
    bucketOf index slot fuel ((z + y) % 16384) = some ((z + x) % 16384) := by
  induction fuel generalizing y with
  | zero => exact absurd enough (Nat.not_lt_zero _)
  | succ fuel ih =>
    rw [bucketOf]
    split
    case h_1 none =>
      rcases Nat.lt_or_eq_of_le below with before | rfl
      · exact absurd none (filled y (Nat.le_refl y) before)
      · cases holds.symm.trans none
    case h_2 k there =>
      split_ifs with same
      · subst same
        rcases Nat.lt_or_eq_of_le below with before | rfl
        · exact absurd there (only y (Nat.le_refl y) before)
        · rfl
      · have before : y < x := by
          rcases Nat.lt_or_eq_of_le below with before | rfl
          · exact before
          · cases holds.symm.trans there
            exact absurd rfl same
        have next : nextBucket ((z + y) % 16384) = (z + (y + 1)) % 16384 := by
          rw [nextBucket_eq]
          omega
        rw [next]
        exact ih before (by omega) (fun u above below => filled u (by omega) below) fun u above below => only u (by omega) below

theorem homeOf_remove {k : Nat} (other : k ≠ slot) : (b.remove slot).homeOf k = b.homeOf k := by
  unfold Book.homeOf Book.remove
  rw [tableFind_tableDel_other other]

theorem live_remove_iff (kept : b.Kept) {k : Nat} : (b.remove slot).Live k ↔ b.Live k ∧ k ≠ slot := by
  unfold Book.Live Book.remove
  by_cases same : k = slot
  · subst same
    simp [tableFind_tableDel_same kept.rising]
  · simp [tableFind_tableDel_other same, same]

/-- The deletion of a live record's entry keeps the index whole (R8). -/
theorem Book.Indexed.remove (h : b.Indexed) (kept : b.Kept) (live : b.Live slot) : (b.remove slot).Indexed := by
  obtain ⟨z, hz, empty⟩ := h.exists_empty kept
  have first : line z b.index 0 = none := by rwa [line, Nat.add_zero, Nat.mod_eq_of_lt hz]
  have lined := h.lined hz empty
  have buckets : Bucketed b.index := by
    refine ⟨h.rising, fun p mem => ?_⟩
    exact (h.entries p.1 p.2 (tableFind_of_mem h.rising mem)).1
  obtain ⟨x, reached⟩ := lined.reached slot live
  have home : (z + b.homePlace z slot) % 16384 = b.homeOf slot := bucket_placeOf hz (homeOf_lt b slot)
  have bucket : bucketOf b.index slot Config.buckets (b.homeOf slot) = some ((z + x) % 16384) := by
    rw [← home]
    refine bucketOf_line reached.bound reached.above ?_ reached.holds reached.filled fun u from_ below same => ?_
    · have := reached.bound
      simp only [Config.buckets]
      omega
    · have := lined.once u x slot (by have := reached.bound; omega) reached.bound same reached.holds
      omega
  have shifting : Shifting (line z b.index) (b.homePlace z) (fun k => b.Live k ∧ k ≠ slot) x (x + 1) := by
    refine ⟨first, Nat.lt_succ_self x, reached.bound, fun y above below => ?_, fun y k hy apart there => ⟨?_, ?_⟩,
      fun u v k hu hv _ _ => lined.once u v k hu hv, fun k ⟨is, other⟩ => ?_⟩
    · rw [show y = x by omega, reached.holds]
      exact Option.some_ne_none slot
    · exact lined.sound y k hy there
    · rintro rfl
      exact apart (lined.once y x k hy reached.bound there reached.holds)
    · obtain ⟨y, reached'⟩ := lined.reached k is
      refine ⟨y, ?_, reached', fun _ above => above⟩
      rintro rfl
      cases reached.holds.symm.trans reached'.holds
      exact other rfl
  have next : nextBucket ((z + x) % 16384) = (z + (x + 1)) % 16384 := by
    rw [nextBucket_eq]
    omega
  have deleted : (b.remove slot).index = backShift b Config.buckets ((z + x) % 16384) ((z + (x + 1)) % 16384) b.index := by
    change indexDelete b slot = _
    simp only [indexDelete, bucket, next]
  obtain ⟨left, leftBuckets, leftEmpty⟩ := backShift_lined (fuel := Config.buckets) hz (by simp only [Config.buckets]; omega) buckets
    shifting
  rw [← deleted] at left leftBuckets leftEmpty
  have whole : Lined (line z (b.remove slot).index) ((b.remove slot).homePlace z) (b.remove slot).Live := by
    refine ⟨fun y k hy there => (live_remove_iff kept).2 (left.sound y k hy there), left.once, fun k is => ?_⟩
    have is := (live_remove_iff kept).1 is
    rw [Book.homePlace, homeOf_remove is.2]
    exact left.reached k is
  have stillEmpty : tableFind z (b.remove slot).index = none := by
    rwa [line, Nat.add_zero, Nat.mod_eq_of_lt hz] at leftEmpty
  refine whole.indexed hz stillEmpty leftBuckets.1 (fun n k there => leftBuckets.2 _ (mem_of_tableFind there))
    fun k k' r r' found found' => ?_
  have other := ((live_remove_iff kept).1 (Option.isSome_iff_exists.2 ⟨r, found⟩)).2
  have other' := ((live_remove_iff kept).1 (Option.isSome_iff_exists.2 ⟨r', found'⟩)).2
  exact h.distinct k k' r r' ((tableFind_tableDel_other other _).symm.trans found)
    ((tableFind_tableDel_other other' _).symm.trans found')

end Sys2Proof.Machine
end

section
/-!
PROOFS. The lane link: the arrival of a frame (R51, R55, R56), the frame a lane takes (R52 to R54), and the read sets and
their resolution (R95 to R99, R108 to R110).
-/

namespace Sys2Proof.Machine

variable {s : State} {n : Lane} {v : Fin 64} {x : Visit}

/-! ### Flags and marks (R55, R56) -/

/-- A change of an open visit, written out. -/
theorem modVisit_eq (h : s.visit v = some x) (f : Visit → Visit) :
    s.modVisit v f = { s with visits := s.visits.set v { s.visits[v] with visit := some (f x) } } := by
  have slot : s.visits[v].visit = some x := h
  simp only [State.modVisit, slot, Option.map_some]

theorem reading_iff (st : VisitState) : st.reading = true ↔ st = .entering ∨ st = .checking := by
  cases st <;> decide

theorem readingVisit_eq_some :
    s.readingVisit n = some (v, x) ↔ s.Resident n v x ∧ (x.state = .entering ∨ x.state = .checking) := by
  simp only [State.readingVisit, Option.filter_eq_some_iff, residentVisit_eq_some, reading_iff]

theorem readingVisit_eq_none (h : ∀ v x, s.Resident n v x → x.state ≠ .entering ∧ x.state ≠ .checking) :
    s.readingVisit n = none := by
  rw [Option.eq_none_iff_forall_ne_some]
  rintro ⟨v, x⟩ found
  obtain ⟨resident, reading⟩ := readingVisit_eq_some.1 found
  obtain ⟨notEntering, notChecking⟩ := h v x resident
  exact reading.elim notEntering notChecking

theorem markLoss_of_reading (h : s.Resident n v x) (reading : x.state = .entering ∨ x.state = .checking) :
    s.markLoss n = { s with visits := s.visits.set v { s.visits[v] with visit := some { x with linkLoss := true } } } := by
  simp only [State.markLoss, readingVisit_eq_some.2 ⟨h, reading⟩]
  exact modVisit_eq h.2 _

theorem markLoss_of_other (h : ∀ v x, s.Resident n v x → x.state ≠ .entering ∧ x.state ≠ .checking) :
    s.markLoss n = s := by
  simp only [State.markLoss, readingVisit_eq_none h]

/-- A flag is set and the lane joins the change set (R55). -/
theorem setFlag_eq (s : State) (n : Lane) (k : FlagKind) : s.setFlag n k = { s with
    lanes := s.lanes.set n { s.lane n with flags := (s.lane n).flags.raise k }
    link := { s.link with changes := joinList (.lane n) s.link.changes } } := rfl

/-- A flag changes no resident visit. -/
theorem resident_setFlag {k : FlagKind} : (s.setFlag n k).Resident n v x ↔ s.Resident n v x := by
  unfold State.Resident
  have lane : ((s.setFlag n k).lane n).resident = (s.lane n).resident := by
    rw [setFlag_eq]
    simp [State.lane]
  rw [lane]
  rfl

/-- A discard that costs a visit in ENTERING or CHECKING its link (R56). -/
theorem setFlag_markLoss (n : Lane) (k : FlagKind) :
    (∀ v x, s.Resident n v x → x.state = .entering ∨ x.state = .checking → (s.setFlag n k).markLoss n =
      { s.setFlag n k with visits := s.visits.set v { s.visits[v] with visit := some { x with linkLoss := true } } })
    ∧ ((∀ v x, s.Resident n v x → x.state ≠ .entering ∧ x.state ≠ .checking) →
        (s.setFlag n k).markLoss n = s.setFlag n k) :=
  ⟨fun _ _ resident reading => markLoss_of_reading (resident_setFlag.2 resident) reading,
    fun other => markLoss_of_other fun v x resident => other v x (resident_setFlag.1 resident)⟩

/-! ### The frame a lane takes (R52 to R54) -/

theorem identOutstanding_iff : s.identOutstanding n = true ↔
    s.engine.waiting[n] ≠ none ∨ ∃ op, s.engine.inFlight = some (.lane n op) := by
  rw [State.identOutstanding, Bool.or_eq_true, Option.isSome_iff_ne_none]
  refine or_congr Iff.rfl ?_
  split
  case h_1 m op flight => simp [flight]
  case h_2 flight => simp [flight]
  case h_3 flight => simp [flight]

theorem takeFrame_of_empty (h : (s.lane n).buffer = []) : s.takeFrame n = s := by
  simp only [State.takeFrame, h]

theorem takeFrame_of_held {f : LaneFrame} {rest : List LaneFrame} (h : (s.lane n).buffer = f :: rest)
    (card : f.isCard = true) (busy : s.identOutstanding n = true) : s.takeFrame n = s := by
  simp only [State.takeFrame, h, card, busy, Bool.and_self, if_true]

theorem takeFrame_of_taken {f : LaneFrame} {rest : List LaneFrame} (h : (s.lane n).buffer = f :: rest)
    (free : f.isCard = true → ¬ s.identOutstanding n = true) :
    s.takeFrame n = (s.modLane n fun l => { l with buffer := rest }).handOff n f := by
  simp only [State.takeFrame, h]
  rw [if_neg]
  simpa using free

theorem isCard_iff {f : LaneFrame} : f.isCard = true ↔ ∃ refs, f = .card refs := by
  cases f <;> simp [LaneFrame.isCard]

theorem resident_modLane {f : LaneUnit → LaneUnit} (keeps : (f (s.lane n)).resident = (s.lane n).resident) :
    (s.modLane n f).Resident n v x ↔ s.Resident n v x := by
  unfold State.Resident
  rw [modLane_lane_same, keeps]
  rfl

theorem handOff_of_stray (h : ∀ v x, s.Resident n v x → x.state ≠ .entering ∧ x.state ≠ .checking) (f : LaneFrame) :
    s.handOff n f = s.setFlag n .stray := by
  simp only [State.handOff, readingVisit_eq_none h]

section
variable (h : s.Resident n v x) (reading : x.state = .entering ∨ x.state = .checking)
include h reading

theorem handOff_plate (t : Text) (c : Nat) :
    s.handOff n (.plate t c) = s.modVisit v fun y => y.takePlate t c := by
  simp only [State.handOff, readingVisit_eq_some.2 ⟨h, reading⟩]

theorem handOff_container (p : Pos) (t : Text) (c : Nat) :
    s.handOff n (.container p t c) = s.modVisit v fun y => y.takeContainer p t c := by
  simp only [State.handOff, readingVisit_eq_some.2 ⟨h, reading⟩]

theorem handOff_seal (p : Pos) (t : Text) (c : Nat) :
    s.handOff n (.sealRead p t c) = s.modVisit v fun y => y.takeSeal p t c := by
  simp only [State.handOff, readingVisit_eq_some.2 ⟨h, reading⟩]

theorem handOff_scan (p : Pos) (size : Nat) (faces : Faces Face) :
    s.handOff n (.scan p size faces) = s.takeScan n x ⟨s.handle v, p, size, faces.map Face.clamped⟩ := by
  simp only [State.handOff, readingVisit_eq_some.2 ⟨h, reading⟩]

theorem handOff_card (refs : List Text) :
    s.handOff n (.card refs) = if x.card = .none then s.requestIdent n v refs else s.setFlag n .stray := by
  simp only [State.handOff, readingVisit_eq_some.2 ⟨h, reading⟩]

end

theorem takePlate_eq (x : Visit) (t : Text) (c : Nat) : x.takePlate t c =
    if 2 ≤ t.length ∧ t.length ≤ 10 then { x with plates := enterRead 8 t (min 100 c) x.plates } else x := by
  simp [Visit.takePlate, lengthIn, clampConf]

/-- The prepared list keeps each reference of 8 characters once, in the card's order (R90). -/
theorem preparedRefs_spec (refs : List Text) : (preparedRefs refs).Sublist refs ∧ (preparedRefs refs).Nodup
    ∧ ∀ t, t ∈ preparedRefs refs ↔ t ∈ refs ∧ t.length = 8 := by
  refine ⟨(List.dedup_sublist _).trans List.filter_sublist, List.nodup_dedup _, fun t => ?_⟩
  simp [preparedRefs, List.mem_dedup]

theorem takeScan_eq (s : State) (n : Lane) (x : Visit) (c : Scan) : s.takeScan n x c =
    let old := s.grader.lanes[n]
    let new : GradeLane :=
      if x.grading = .isOpen then
        { old with
          pending := some c
          superseded := if old.pending = none then old.superseded else min 65535 (old.superseded + 1) }
      else { old with late := min 65535 (old.late + 1) }
    { s with grader := { s.grader with lanes := s.grader.lanes.set n new } } := by
  unfold State.takeScan
  split
  · simp only [State.modGrade, satSucc_eq]
    cases s.grader.lanes[n].pending <;> rfl
  · simp only [State.modGrade, GradeLane.countLate, satSucc_eq]

/-! ### Read sets (R95, R96, R108 to R110) -/

section
variable {t : Text} {c : Nat} {rs : List ReadEntry}

theorem hasText_iff : hasText t rs = true ↔ ∃ e ∈ rs, e.text = t := by
  simp [hasText]

theorem hasText_eq_false (h : ∀ e ∈ rs, e.text ≠ t) : hasText t rs = false :=
  Bool.eq_false_iff.2 fun there => by
    obtain ⟨e, mem, same⟩ := hasText_iff.1 there
    exact h e mem same

/-- The lowest confidence is a bound that is met. -/
theorem foldl_min_eq {low start : Nat} (below : low ≤ start) (bound : ∀ e ∈ rs, low ≤ e.conf)
    (met : start = low ∨ ∃ e ∈ rs, e.conf = low) : rs.foldl (fun m e => min m e.conf) start = low := by
  induction rs generalizing start with
  | nil => simpa using met
  | cons e rs ih =>
    have least : low ≤ e.conf := bound e List.mem_cons_self
    refine ih (Nat.le_min.2 ⟨below, least⟩) (fun e' mem => bound e' (List.mem_cons_of_mem _ mem)) ?_
    rcases met with rfl | ⟨e', mem, is⟩
    · exact .inl (Nat.min_eq_left least)
    · rcases List.mem_cons.1 mem with rfl | mem
      · exact .inl (by dsimp only; omega)
      · exact .inr ⟨e', mem, is⟩

theorem lowestConf_eq {e : ReadEntry} (mem : e ∈ rs) (bound : ∀ o ∈ rs, o.conf ≤ 100)
    (least : ∀ o ∈ rs, e.conf ≤ o.conf) : lowestConf rs = e.conf :=
  foldl_min_eq (bound e mem) least (.inr ⟨e, mem, rfl⟩)

theorem eraseP_first {before after : List ReadEntry} {e : ReadEntry} (first : ∀ o ∈ before, e.conf < o.conf) :
    (before ++ e :: after).eraseP (fun o => o.conf == e.conf) = before ++ after := by
  rw [List.eraseP_append_right, List.eraseP_cons_of_pos (by simp)]
  intro o mem
  have := first o mem
  simp only [beq_iff_eq]
  omega

/-- Raising an entry's confidence keeps the texts. -/
theorem map_text_raiseConf (t : Text) (c : Nat) (rs : List ReadEntry) :
    (raiseConf t c rs).map (·.text) = rs.map (·.text) := by
  simp only [raiseConf, List.map_map]
  refine List.map_congr_left fun e _ => ?_
  simp only [Function.comp_apply]
  split <;> rfl

theorem enter_of_known {x : SealSet} (h : ∃ e ∈ x.entries, e.text = t) :
    x.enter t c = { x with entries := raiseConf t c x.entries } := by
  simp only [SealSet.enter, hasText_iff.2 h, if_true]

theorem enter_of_room {x : SealSet} (h : ∀ e ∈ x.entries, e.text ≠ t) (room : x.entries.length < 6) :
    x.enter t c = { x with entries := x.entries ++ [⟨t, c⟩] } := by
  simp only [SealSet.enter, hasText_eq_false h, Bool.false_eq_true, if_false, if_pos room]

theorem enter_of_full {x : SealSet} (h : ∀ e ∈ x.entries, e.text ≠ t) (full : 6 ≤ x.entries.length) :
    x.enter t c = { x with overflow := true } := by
  simp only [SealSet.enter, hasText_eq_false h, Bool.false_eq_true, if_false, if_neg (Nat.not_lt.2 full)]

/-- The three things that a seal read can do. -/
theorem enter_cases (x : SealSet) (t : Text) (c : Nat) :
    x.enter t c = { x with entries := raiseConf t c x.entries }
      ∨ ((∀ e ∈ x.entries, e.text ≠ t) ∧ x.entries.length < 6 ∧ x.enter t c = { x with entries := x.entries ++ [⟨t, c⟩] })
      ∨ x.enter t c = { x with overflow := true } := by
  by_cases known : ∃ e ∈ x.entries, e.text = t
  · exact .inl (enter_of_known known)
  · have new : ∀ e ∈ x.entries, e.text ≠ t := fun e mem same => known ⟨e, mem, same⟩
    rcases Nat.lt_or_ge x.entries.length 6 with room | full
    · exact .inr (.inl ⟨new, room, enter_of_room new room⟩)
    · exact .inr (.inr (enter_of_full new full))

end

/-! ### Resolution (R98, R99) -/

/-- The better of the best read so far and a read: the first entered among equals. -/
def betterRead (best : Option ReadEntry) (e : ReadEntry) : Option ReadEntry :=
  match best with
  | none => some e
  | some b => if b.conf < e.conf then some e else some b

theorem bestRead_eq (rs : List ReadEntry) : bestRead rs = rs.foldl betterRead none := rfl

theorem foldl_betterRead_of_le {rs : List ReadEntry} {e : ReadEntry} (h : ∀ o ∈ rs, o.conf ≤ e.conf) :
    rs.foldl betterRead (some e) = some e := by
  induction rs with
  | nil => rfl
  | cons o rs ih =>
    have stays : betterRead (some e) o = some e := if_neg (Nat.not_lt.2 (h o List.mem_cons_self))
    rw [List.foldl_cons, stays]
    exact ih fun o' mem => h o' (List.mem_cons_of_mem _ mem)

theorem foldl_betterRead_mem {rs : List ReadEntry} {start : Option ReadEntry} :
    ∀ o ∈ rs.foldl betterRead start, o ∈ start ∨ o ∈ rs := by
  induction rs generalizing start with
  | nil => exact fun o mem => .inl mem
  | cons e rs ih =>
    intro o mem
    rcases ih o mem with mem | mem
    · cases start with
      | none =>
        cases mem
        exact .inr List.mem_cons_self
      | some b =>
        rw [betterRead] at mem
        split at mem <;> cases mem
        · exact .inr List.mem_cons_self
        · exact .inl rfl
    · exact .inr (List.mem_cons_of_mem _ mem)

/-- An entry is the best of a read set: above every entry before it, and not below any behind it. -/
def IsBest (rs : List ReadEntry) (e : ReadEntry) : Prop :=
  ∃ before after, rs = before ++ e :: after ∧ (∀ o ∈ before, o.conf < e.conf) ∧ ∀ o ∈ after, o.conf ≤ e.conf

theorem bestRead_of_isBest {rs : List ReadEntry} {e : ReadEntry} (h : IsBest rs e) : bestRead rs = some e := by
  obtain ⟨before, after, rfl, below, atMost⟩ := h
  have first : betterRead (before.foldl betterRead none) e = some e := by
    cases best : before.foldl betterRead none with
    | none => rfl
    | some b =>
      rcases foldl_betterRead_mem b best with mem | mem
      · cases mem
      · exact if_pos (below b mem)
  rw [bestRead_eq, List.foldl_append, List.foldl_cons, first]
  exact foldl_betterRead_of_le atMost

end Sys2Proof.Machine

open Sys2Proof Sys2Proof.Machine in
/-- Settles O27. -/
theorem laneFrameArrivalIsJudgedInOrder : Obligations.LaneFrameArrivalIsJudgedInOrder := by
  intro s n chars power flagged old lossy a
  have arrives {t : State} (h : s.frameArrives n chars = t) : exec a s = .next t := (live_on power _).trans (congrArg _ h)
  have loses {k : FlagKind} (h : s.frameArrives n chars = (s.setFlag n k).markLoss n) :
      lossy (s.setFlag n k) a := by
    obtain ⟨reading, other⟩ := setFlag_markLoss (s := s) n k
    exact ⟨fun v x resident state => arrives (h.trans (reading v x resident state)),
      fun none => arrives (h.trans (other none))⟩
  refine ⟨fun frame => arrives ?_, fun frame => loses (k := .checkError) ?_, fun fr frame =>
    ⟨fun none => arrives ?_, fun c contents => ⟨fun full => loses (k := .overrun) ?_, fun room => arrives ?_⟩⟩,
    live_on power _⟩
  · simp only [State.frameArrives, frame]
    rfl
  · simp only [State.frameArrives, frame]
  · simp only [State.frameArrives, frame, none]
    rfl
  · simp only [State.frameArrives, frame, contents, if_pos full]
  · simp only [State.frameArrives, frame, contents, if_neg (Nat.not_le.2 room)]
    rfl

open Sys2Proof Sys2Proof.Machine in
/-- Settles O28. -/
theorem takenFrameGoesToItsOwner : Obligations.TakenFrameGoesToItsOwner := by
  intro s n power a took busy stray
  have takes {t : State} (h : s.takeFrame n = t) : exec a s = .next t := (live_on power _).trans (congrArg _ h)
  have seen {v : Fin 64} {x : Visit} {rest : List LaneFrame} :
      (s.modLane n fun l => { l with buffer := rest }).Resident n v x ↔ s.Resident n v x := resident_modLane rfl
  have flags (rest : List LaneFrame) : (s.modLane n fun l => { l with buffer := rest }).setFlag n .stray = stray rest := by
    rw [setFlag_eq, modLane_lane_same]
    simp [stray, State.modLane, State.lane, LinkFlags.raise]
  refine ⟨fun empty => takes (takeFrame_of_empty empty), fun refs rest buffer isBusy =>
      takes (takeFrame_of_held buffer rfl (identOutstanding_iff.2 isBusy)), fun fr rest buffer free other => takes ?_,
    fun fr rest v x buffer resident reading => ?_⟩
  · rw [takeFrame_of_taken buffer fun card => mt identOutstanding_iff.1 (free (isCard_iff.1 card)),
      handOff_of_stray (fun v x resident => other v x (seen.1 resident)), flags]
  · intro put
    have there : (s.modLane n fun l => { l with buffer := rest }).visit v = some x := resident.2
    have owner := seen (rest := rest) |>.2 resident
    refine ⟨fun text conf is => takes ?_, fun pos text conf is => takes ?_, fun pos text conf is => takes ?_,
      fun pos size faces is => ?_, fun refs is free card => takes ?_, fun refs is free card few => ?_⟩
    all_goals subst is
    · rw [takeFrame_of_taken buffer (fun card => by cases card), handOff_plate owner reading, modVisit_eq there,
        takePlate_eq]
      rfl
    · rw [takeFrame_of_taken buffer (fun card => by cases card), handOff_container owner reading, modVisit_eq there]
      rfl
    · rw [takeFrame_of_taken buffer (fun card => by cases card), handOff_seal owner reading, modVisit_eq there]
      rfl
    · refine takes ?_
      rw [takeFrame_of_taken buffer (fun card => by cases card), handOff_scan owner reading, takeScan_eq]
      rfl
    · rw [takeFrame_of_taken buffer fun _ => mt identOutstanding_iff.1 free, handOff_card owner reading, if_neg card,
        flags]
    · obtain ⟨sublist, nodup, members⟩ := preparedRefs_spec refs
      refine ⟨preparedRefs refs, sublist, nodup, members, takes ?_⟩
      rw [takeFrame_of_taken buffer fun _ => mt identOutstanding_iff.1 free, handOff_card owner reading, if_pos card,
        State.requestIdent, modVisit_eq there]
      rfl

open Sys2Proof Sys2Proof.Machine in
/-- Settles O29. -/
theorem readSetsKeepAndResolveTheBestReads : Obligations.ReadSetsKeepAndResolveTheBestReads := by
  refine ⟨fun cap t c rs hc bound => ⟨fun known => ?_, fun new room => ?_, fun before e after new full split least first => ?_⟩,
    ?resolve, fun x t c => ⟨fun known => enter_of_known known, fun new room => enter_of_room new room,
      fun new full => enter_of_full new full, fun few => ?few, fun nodup => ?nodup, fun e mem => ?kept⟩⟩
  · exact if_pos (hasText_iff.2 known)
  · rw [enterRead, if_neg (by simp [hasText_eq_false new]), if_pos room]
  · have lowest : lowestConf rs = e.conf := lowestConf_eq (by simp [split]) bound least
    rw [enterRead, if_neg (by simp [hasText_eq_false new]), if_neg (Nat.not_lt.2 full), lowest]
    subst split
    rw [eraseP_first first]
  case resolve =>
    intro best floor rs q valid
    have plain : resolvePos floor rs = match bestRead valid with
        | some e => .resolved e
        | none => match bestRead q with
          | some e => .checkFail e
          | none => .unread := rfl
    refine ⟨fun e is => ?_, fun e none is => ?_, fun none => ?_, fun x b plates => ⟨fun e is => ?_, fun none => ?_⟩⟩
    · rw [plain, bestRead_of_isBest is]
    · rw [plain, none, bestRead_of_isBest is]
      rfl
    · have noValid : valid = [] := by simp only [valid, none, List.filter_nil]
      rw [plain, noValid, none]
      rfl
    · have resolved : bestRead (qualifying floor x.plates) = some e := plates ▸ bestRead_of_isBest is
      simp only [Visit.resolvePlate, resolved, and_self]
    · have unread : qualifying floor x.plates = [] := plates ▸ none
      simp only [Visit.resolvePlate, unread]
      rfl
  case few =>
    rcases enter_cases x t c with same | ⟨-, room, same⟩ | same <;> rw [same]
    · simpa [raiseConf] using few
    · simpa using room
    · exact few
  case nodup =>
    rcases enter_cases x t c with same | ⟨new, -, same⟩ | same <;> rw [same]
    · rwa [map_text_raiseConf]
    · simp only [List.map_append, List.map_cons, List.map_nil]
      refine List.nodup_append.2 ⟨nodup, by simp, fun a ha b hb => ?_⟩
      obtain ⟨e, mem, rfl⟩ := List.mem_map.1 ha
      rw [List.mem_singleton.1 hb]
      exact new e mem
    · exact nodup
  case kept =>
    rcases enter_cases x t c with same | ⟨-, -, same⟩ | same <;> rw [same]
    · refine ⟨if e.text = t then { e with conf := max e.conf c } else e, List.mem_map_of_mem mem, ?_⟩
      split
      · exact ⟨rfl, Nat.le_max_left _ _⟩
      · exact ⟨rfl, Nat.le_refl _⟩
    · exact ⟨e, List.mem_append_left _ mem, rfl, Nat.le_refl _⟩
    · exact ⟨e, mem, rfl, Nat.le_refl _⟩
end

section
/-!
PROOFS. The grading arithmetic (R127 to R130), the settling of a position (R132) and the force (R136).
-/

namespace Sys2Proof.Machine

/-! ### The arithmetic (R127 to R129) -/

theorem clamp1023_eq (z : Int) : (clamp1023 z : Int) = if z < 0 then 0 else if 1023 < z then 1023 else z := by
  unfold clamp1023
  split_ifs <;> omega

section
variable {p : Params} {f : Face}

theorem grade_of_uncovered (h : f.c < p.floor) : p.grade f = .unseen := if_pos h

variable (covered : p.floor ≤ f.c)
include covered

theorem grade_clean (h : p.severity f < p.t1) : p.grade f = .clean := by
  rw [Params.grade, if_neg (Nat.not_lt.2 covered), if_pos h]

theorem grade_minor (h1 : p.t1 ≤ p.severity f) (h2 : p.severity f < p.t2) : p.grade f = .minor := by
  rw [Params.grade, if_neg (Nat.not_lt.2 covered), if_neg (Nat.not_lt.2 h1), if_pos h2]

theorem grade_major (h1 : p.t1 ≤ p.severity f) (h2 : p.t2 ≤ p.severity f) (h3 : p.severity f < p.t3) :
    p.grade f = .major := by
  rw [Params.grade, if_neg (Nat.not_lt.2 covered), if_neg (Nat.not_lt.2 h1), if_neg (Nat.not_lt.2 h2), if_pos h3]

theorem grade_critical (h1 : p.t1 ≤ p.severity f) (h2 : p.t2 ≤ p.severity f) (h3 : p.t3 ≤ p.severity f) :
    p.grade f = .critical := by
  rw [Params.grade, if_neg (Nat.not_lt.2 covered), if_neg (Nat.not_lt.2 h1), if_neg (Nat.not_lt.2 h2),
    if_neg (Nat.not_lt.2 h3)]

end

/-! ### The class (R130) -/

theorem rank_inj {a b : Grade} (h : a.rank = b.rank) : a = b := by
  cases a <;> cases b <;> first | rfl | cases h

theorem rank_worse (a b : Grade) : (a.worse b).rank = max a.rank b.rank := by
  unfold Grade.worse
  split <;> omega

/-- The worst of some grades is one of them, and none is worse. -/
theorem foldl_worse (l : List Grade) (start : Grade) :
    (l.foldl Grade.worse start = start ∨ l.foldl Grade.worse start ∈ l)
      ∧ start.rank ≤ (l.foldl Grade.worse start).rank ∧ ∀ g ∈ l, g.rank ≤ (l.foldl Grade.worse start).rank := by
  induction l generalizing start with
  | nil => simp
  | cons g l ih =>
    obtain ⟨one, least, most⟩ := ih (start.worse g)
    have rank := rank_worse start g
    rw [List.foldl_cons]
    refine ⟨?_, by omega, fun g' mem => ?_⟩
    · rcases one with one | one
      · rw [one]
        unfold Grade.worse
        split
        · exact .inr List.mem_cons_self
        · exact .inl rfl
      · exact .inr (List.mem_cons_of_mem _ one)
    · rcases List.mem_cons.1 mem with rfl | mem
      · omega
      · exact most g' mem

section
variable {f : Faces Grade}

theorem rank_le_worstGrade {g : Grade} (h : g ∈ f.toList) : g.rank ≤ (worstGrade f).rank :=
  (foldl_worse f.toList .unseen).2.2 g h

theorem worstGrade_mem (h : worstGrade f ≠ .unseen) : worstGrade f ∈ f.toList :=
  (foldl_worse f.toList .unseen).1.resolve_left h

/-- The worst grade is the one that stands and that no other exceeds. -/
theorem worstGrade_eq {g : Grade} (h : g ∈ f.toList) (worst : ∀ g' ∈ f.toList, g'.rank ≤ g.rank) : worstGrade f = g := by
  by_cases unseen : worstGrade f = .unseen
  · have := rank_le_worstGrade h
    rw [unseen] at this ⊢
    exact rank_inj (Nat.le_antisymm (Nat.zero_le _) this)
  · exact rank_inj (Nat.le_antisymm (worst _ (worstGrade_mem unseen)) (rank_le_worstGrade h))

theorem unseen_iff : (f.toList.any (· == .unseen)) = true ↔ Grade.unseen ∈ f.toList := by
  simp [List.any_eq_true]

theorem classOf_critical (h : Grade.critical ∈ f.toList) : classOf f = .critical := by
  rw [classOf, worstGrade_eq h fun g _ => by cases g <;> decide]

theorem rank_le_of_ne {g : Grade} (h : g ≠ .critical) : g.rank ≤ 3 := by
  cases g <;> first | decide | exact absurd rfl h

theorem rank_le_of_ne_major {g : Grade} (h : g ≠ .critical) (h' : g ≠ .major) : g.rank ≤ 2 := by
  cases g <;> first | decide | exact absurd rfl h | exact absurd rfl h'

variable (uncritical : Grade.critical ∉ f.toList)
include uncritical

theorem classOf_major (h : Grade.major ∈ f.toList) : classOf f = .major := by
  rw [classOf, worstGrade_eq h fun g mem => rank_le_of_ne fun is => uncritical (is ▸ mem)]

variable (unmajor : Grade.major ∉ f.toList)
include unmajor

theorem classOf_incomplete (h : Grade.unseen ∈ f.toList) : classOf f = .incomplete := by
  have unseen := unseen_iff.2 h
  cases worst : worstGrade f with
  | unseen => simp only [classOf, worst]
  | clean => simp only [classOf, worst, unseen, if_true]
  | minor => simp only [classOf, worst, unseen, if_true]
  | major => exact absurd (worst ▸ worstGrade_mem (by simp [worst])) unmajor
  | critical => exact absurd (worst ▸ worstGrade_mem (by simp [worst])) uncritical

variable (seen : Grade.unseen ∉ f.toList)
include seen

theorem classOf_minor (h : Grade.minor ∈ f.toList) : classOf f = .minor := by
  have worst : worstGrade f = .minor := worstGrade_eq h fun g mem =>
    rank_le_of_ne_major (fun is => uncritical (is ▸ mem)) fun is => unmajor (is ▸ mem)
  simp only [classOf, worst, if_neg (mt unseen_iff.1 seen)]

theorem classOf_clean (h : Grade.minor ∉ f.toList) : classOf f = .clean := by
  have all : ∀ g ∈ f.toList, g = .clean := fun g mem => by
    cases g with
    | clean => rfl
    | minor => exact absurd mem h
    | major => exact absurd mem unmajor
    | critical => exact absurd mem uncritical
    | unseen => exact absurd mem seen
  have left : f.left ∈ f.toList := List.mem_cons_self
  have worst : worstGrade f = .clean := worstGrade_eq (all f.left left ▸ left) fun g mem => by rw [all g mem]
  simp only [classOf, worst, if_neg (mt unseen_iff.1 seen)]

end

/-! ### The settling of a position (R132) -/

theorem sat255_eq (n : Nat) : sat255 n = min 255 (n + 1) := by
  unfold sat255
  split <;> omega

/-- After `j` equal scans of a position that had seen none (R132). -/
structure Stability.AfterEqual (x : Stability) (k size j : Nat) (f : Faces Grade) : Prop where
  scans : x.scans = min 255 j
  run : x.run = min 255 j
  previous : 0 < j → x.previous = some (size, f)
  none : j < k → x.result = none
  settled : k ≤ j → x.result = some ⟨classOf f, f, .settled, size⟩

/-- A scan settles a position with no result when the run reaches K (R132). -/
theorem apply_result {x : Stability} (h : x.result = none) (k size : Nat) (f : Faces Grade) :
    (x.apply k size f).result =
      if k ≤ (x.apply k size f).run then some ⟨classOf f, f, .settled, size⟩ else none := by
  simp only [Stability.apply, h]

theorem Stability.AfterEqual.apply {x : Stability} {k size j : Nat} {f : Faces Grade} (h : x.AfterEqual k size j f)
    (small : k ≤ 15) : (x.apply k size f).AfterEqual k size (j + 1) f := by
  have run : (x.apply k size f).run = min 255 (j + 1) := by
    change (if x.previous = some (size, f) then sat255 x.run else 1) = _
    split
    case isTrue => rw [sat255_eq, h.run]; omega
    case isFalse first =>
      have : j = 0 := by
        by_contra some
        exact first (h.previous (Nat.pos_of_ne_zero some))
      omega
  refine ⟨?_, run, fun _ => rfl, fun before => ?_, fun reached => ?_⟩
  · change sat255 x.scans = _
    rw [sat255_eq, h.scans]
    omega
  · rw [apply_result (h.none (by omega)), run]
    exact if_neg (by omega)
  · rcases Nat.lt_or_ge j k with last | past
    · rw [apply_result (h.none last), run]
      exact if_pos (by omega)
    · simp only [Stability.apply, h.settled past]

theorem opened_afterEqual {k : Nat} (positive : 1 ≤ k) (size : Nat) (f : Faces Grade) :
    Stability.opened.AfterEqual k size 0 f where
  scans := rfl
  run := rfl
  previous h := absurd h (Nat.lt_irrefl 0)
  none _ := rfl
  settled h := by omega

theorem iterate_apply {k : Nat} (positive : 1 ≤ k) (small : k ≤ 15) (size j : Nat) (f : Faces Grade) :
    ((fun y : Stability => y.apply k size f)^[j] Stability.opened).AfterEqual k size j f := by
  induction j with
  | zero => exact opened_afterEqual positive size f
  | succ j ih =>
    rw [Function.iterate_succ_apply']
    exact ih.apply small

/-! ### The force (R136) -/

theorem force_of_scanned {x : Stability} (scanned : 0 < x.scans) (none : x.result = none) :
    let f := x.worst.map fun g => g.getD .unseen
    x.force = { x with result := some ⟨classOf f, f, .forced, (x.previous.map fun p => p.1).getD 0⟩ } :=
  if_pos ⟨scanned, by simp [none]⟩

theorem force_of_other {x : Stability} (h : x.scans = 0 ∨ x.result ≠ none) : x.force = x := by
  refine if_neg ?_
  rintro ⟨scanned, none⟩
  rcases h with unscanned | result
  · omega
  · exact result (Option.isNone_iff_eq_none.1 none)

end Sys2Proof.Machine

open Sys2Proof Sys2Proof.Machine in
/-- Settles O40. -/
theorem scansAreGradedAndSettleAPosition : Obligations.ScansAreGradedAndSettleAPosition := by
  refine ⟨⟨fun p f => ⟨fun r => ?component, ?severity, grade_of_uncovered, fun covered h1 h2 => ?grade⟩, fun f => ?cls⟩,
    fun k size j f positive small => ?equal, fun x => ⟨fun scanned none => ?forced, force_of_other⟩⟩
  case component =>
    generalize acc : r.d * f.d + r.b * f.b + r.s * f.s + 2048 = a
    refine ⟨a / 4096, by omega, by omega, ?_⟩
    rw [MixRow.component, acc, clamp1023_eq]
  case severity =>
    unfold Params.severity
    generalize p.wd * p.dent.component f + p.wh * p.hole.component f + p.wr * p.rust.component f = sum
    refine ⟨sum / 8, by omega, by omega, ?_⟩
    split <;> omega
  case grade =>
    exact ⟨grade_clean covered, grade_minor covered, fun low => grade_major covered (by omega) low,
      fun low => grade_critical covered (by omega) (by omega) low⟩
  case cls =>
    exact ⟨classOf_critical, classOf_major, classOf_incomplete, fun uncritical unmajor seen =>
      classOf_minor uncritical unmajor seen, fun uncritical unmajor seen => classOf_clean uncritical unmajor seen⟩
  case equal =>
    have after := iterate_apply positive small size j f
    exact ⟨after.scans, after.run, after.none, after.settled⟩
  case forced =>
    refine ⟨_, force_of_scanned scanned none, rfl, rfl, fun size f previous => ?_, rfl⟩
    simp only [previous, Option.map_some, Option.getD_some]
end

section
/-!
PROOFS. The leg of a reference (R91, R92, R33 to R36).
-/

namespace Sys2Proof.Machine

variable {s : State} {h : Handle} {a : Nat} {ref : Text} {slot : Nat} {b : Booking}

/-! ### What a lookup finds (R91) -/

theorem isDrop_iff (k : Kind) : k.isDrop = true ↔ k = .exportFull ∨ k = .emptyReturn := by
  cases k <;> decide

/-- A leg formed from a booking, written out (R63, R91). -/
theorem formed_eq (slot : Nat) (b : Booking) (w : WindowOutcome) (e : Option LegException) :
    Leg.formed slot b w e = ⟨b.ref, some slot, some b.kind, some b.teu, w, none,
      if b.kind = .exportFull ∨ b.kind = .emptyReturn then .notRead else .notApplicable,
      if b.kind = .exportFull ∨ b.kind = .emptyReturn then .unread else .notApplicable, none, none,
      if b.kind = .exportFull ∨ b.kind = .emptyReturn then .flag else .notApplicable, e, .pending, none, false⟩ := by
  unfold Leg.formed
  simp only [isDrop_iff]

theorem formLeg_of_unknown (formed : ref.length = 8) (unknown : s.book.lookup ref = none) :
    s.formLeg h a ref = (s, .notFound ref) := by
  simp only [State.formLeg, findBooking_of_unknown formed unknown]

section
variable (finds : s.Finds ref slot b)
include finds

theorem formLeg_of_inLane (st : b.state = .inLane) :
    s.formLeg h a ref = (s, .formed slot b .noWindow (some .duplicateUse)) := by
  simp only [State.formLeg, finds.findBooking_eq, st]

theorem formLeg_of_admitted (st : b.state = .admitted) :
    s.formLeg h a ref = (s, .formed slot b .noWindow (some .alreadyAdmitted)) := by
  simp only [State.formLeg, finds.findBooking_eq, st]

theorem formLeg_of_noShow (st : b.state = .noShow) :
    s.formLeg h a ref = (s, .formed slot b .noWindow (some .noShow)) := by
  simp only [State.formLeg, finds.findBooking_eq, st]

theorem formLeg_of_booked (st : b.state = .booked) {outcome : WindowOutcome} {taker : Option Window}
    (claims : claimOutcome s.ring a b = (outcome, taker)) :
    s.formLeg h a ref = (s.claim h slot b taker, .formed slot b outcome none) := by
  simp only [State.formLeg, finds.findBooking_eq, st, claims]

end

/-! ### The claim of a booking with a window (R33 to R36, R92) -/

section
variable {ring : Ring} {w : Nat} (window : b.window = some w)
include window

theorem claimOutcome_of_early (early : a + ring.early < w) : claimOutcome ring a b = (.early, none) := by
  simp only [claimOutcome, window, Ring.arrivalTest, if_pos early]

theorem claimOutcome_of_onTime (begun : w ≤ a + ring.early) (open_ : a < w + ring.span + ring.grace) :
    claimOutcome ring a b = (.onTime, none) := by
  simp only [claimOutcome, window, Ring.arrivalTest, if_neg (Nat.not_lt.2 begun), if_pos open_]

section
variable (begun : w ≤ a + ring.early) (past : w + ring.span + ring.grace ≤ a)
include begun past

theorem claimOutcome_of_late (absent : ring.transferTo a b.kind = none) : claimOutcome ring a b = (.late, none) := by
  simp only [claimOutcome, window, Ring.arrivalTest, if_neg (Nat.not_lt.2 begun), if_neg (Nat.not_lt.2 past), absent]

theorem claimOutcome_of_transferred {x : Window} (takes : ring.transferTo a b.kind = some x) :
    claimOutcome ring a b = (.transferred, some x) := by
  simp only [claimOutcome, window, Ring.arrivalTest, if_neg (Nat.not_lt.2 begun), if_neg (Nat.not_lt.2 past), takes]

end

/-- A claim without a transfer leaves the booking its window (R92). -/
theorem claim_none (s : State) (h : Handle) (slot : Nat) : s.claim h slot b none = { s with
    book := { s.book with
      records := tablePut slot { b with state := .inLane, visit := some h, window := some w } s.book.records } } := by
  have same : ({ b with state := .inLane, visit := some h } : Booking)
      = { b with state := .inLane, visit := some h, window := some w } := by rw [← window]
  rw [← same]
  rfl

/-- A transfer moves the booking between the booked counts (R36). -/
theorem claim_some (s : State) (h : Handle) (slot : Nat) {x : Window} (other : x.start ≠ w) :
    s.claim h slot b (some x) = { s with
      book := { s.book with
        records := tablePut slot { b with state := .inLane, visit := some h, window := some x.start } s.book.records }
      ring := { s.ring with windows := s.ring.windows.map fun y =>
        if y.start = w then { y with booked := y.booked.put b.kind (y.booked.get b.kind - 1) }
        else if y.start = x.start then { y with booked := y.booked.put b.kind (y.booked.get b.kind + 1) }
        else y } } := by
  rw [← Ring.moveBooked_of_ne _ _ other, ← window]
  rfl

end

/-- The windows offered to a LATE booking (R35). -/
theorem offered_eq (ring : Ring) (a : Nat) : ring.offered a = (ring.windows.filter fun x =>
    x.start ≤ a + ring.early ∧ a < x.start + ring.span + ring.grace).take ring.reach := by
  simp only [Ring.offered, Ring.onTime, Bool.decide_and]

/-- An offered window begins after the one that is past. -/
theorem start_ne_of_transferTo {ring : Ring} {k : Kind} {x : Window} {w : Nat} (takes : ring.transferTo a k = some x)
    (past : w + ring.span + ring.grace ≤ a) : x.start ≠ w := by
  have mem := List.mem_of_find?_eq_some takes
  rw [offered_eq] at mem
  have onTime := (List.mem_filter.1 (List.mem_of_mem_take mem)).2
  rw [decide_eq_true_eq] at onTime
  omega

end Sys2Proof.Machine

open Sys2Proof Sys2Proof.Machine in
/-- Settles O35. -/
theorem legFollowsFromWhatTheLookupFinds : Obligations.LegFollowsFromWhatTheLookupFinds := by
  intro s h a ref length leg claimed
  refine ⟨formLeg_of_unknown length, fun slot b looked found same => ?_⟩
  have finds : s.Finds ref slot b := ⟨length, looked, found⟩
  have formed (w : WindowOutcome) (e : Option LegException) : Leg.formed slot b w e = leg slot b w e := by
    rw [formed_eq, same]
  refine ⟨fun st => (formLeg_of_inLane finds st).trans (by rw [formed]),
    fun st => (formLeg_of_admitted finds st).trans (by rw [formed]),
    fun st => (formLeg_of_noShow finds st).trans (by rw [formed]), fun w st window => ?_⟩
  intro L E G
  have keeps {outcome : WindowOutcome} (claims : claimOutcome s.ring a b = (outcome, none)) :
      s.formLeg h a ref = (claimed slot b w s.ring, leg slot b outcome none) := by
    rw [formLeg_of_booked finds st claims, claim_none window, formed]
  refine ⟨fun early => keeps (claimOutcome_of_early window early),
    fun begun open_ => keeps (claimOutcome_of_onTime window begun open_), fun begun past => ?_⟩
  intro offered room
  have searched : s.ring.transferTo a b.kind = room := by
    rw [Ring.transferTo, offered_eq]
    rfl
  refine ⟨fun none => keeps (claimOutcome_of_late window begun past (searched.trans none)), fun x takes => ?_⟩
  have takes := searched.trans takes
  rw [formLeg_of_booked finds st (claimOutcome_of_transferred window begun past takes),
    claim_some window s h slot (start_ne_of_transferTo takes past), formed]
end

section
/-!
PROOFS. What the end of CHECKING judges: the plate (R98), the binding (R99 to R102), the seal and damage verdicts (R115
to R118, R137, R138), and the clean visit (R147, R148).
-/

namespace Sys2Proof.Machine

variable {b : Book} {o : PosPair PosOutcome} {l : Leg} {r : Booking}

/-! ### The record a leg names (R18) -/

theorem Leg.books_iff : l.Books b r ↔ ∃ k, b.held l.slot l.ref = some (k, r) := by
  constructor
  · rintro ⟨k, slot, live, ref⟩
    exact ⟨k, by simp only [Book.held, slot, live, if_pos ref]⟩
  · rintro ⟨k, held⟩
    unfold Book.held at held
    split at held
    · cases held
    · next j slot =>
      split at held
      · next q live =>
        split at held
        · next ref =>
          cases held
          exact ⟨_, slot, live, ref⟩
        · cases held
      · cases held

theorem Leg.isDrop_iff : l.kind.any Kind.isDrop = true ↔ l.IsDrop := by
  cases kind : l.kind with
  | none => simp [Leg.IsDrop, kind]
  | some k => simp [Leg.IsDrop, kind, Machine.isDrop_iff]

/-- The legs that take part in the binding (R101). -/
theorem eligible_eq_some : eligible b l = some r ↔
    l.IsDrop ∧ l.exception ≠ some .duplicateUse ∧ l.exception ≠ some .alreadyAdmitted ∧ l.Books b r := by
  rw [Leg.books_iff, ← Leg.isDrop_iff, eligible]
  simp only [Bool.and_eq_true, bne_iff_ne, ne_eq]
  split
  · next able =>
    obtain ⟨⟨drop, first⟩, second⟩ := able
    simp [drop, first, second]
  · next able => simp only [reduceCtorEq, false_iff]; rintro ⟨drop, first, second, -⟩; exact able ⟨⟨drop, first⟩, second⟩

theorem resolvedTo_iff {q : PosOutcome} : resolvedTo q r = true ↔ ∃ e, q = .resolved e ∧ r.container = some e.text := by
  cases q <;> simp [resolvedTo]

theorem hasReads_iff {q : PosOutcome} : q.hasReads = true ↔ q ≠ .unread := by
  cases q <;> simp [PosOutcome.hasReads]

/-! ### The exact step (R101) -/

/-- The position that the exact step binds to a leg, some positions being taken. -/
def exactChoice (b : Book) (o : PosPair PosOutcome) (taken : List Pos) (l : Leg) : Option Pos :=
  (eligible b l).bind fun r => [Pos.one, Pos.two].find? fun p => !taken.contains p && resolvedTo (o.get p) r

/-- The positions that the exact step binds to the legs of a list. -/
def exactChoices (b : Book) (o : PosPair PosOutcome) : List Pos → List Leg → List (Option Pos)
  | _, [] => []
  | taken, l :: rest =>
    exactChoice b o taken l :: exactChoices b o ((exactChoice b o taken l).toList ++ taken) rest

/-- A leg with the position that the exact step binds to it. -/
def Leg.bindTo (l : Leg) : Option Pos → Leg
  | some p => { l with bound := some p, container := .matched }
  | none => l

theorem bindExact_eq (taken : List Pos) (legs : List Leg) :
    bindExact b o taken legs = List.zipWith Leg.bindTo legs (exactChoices b o taken legs) := by
  induction legs generalizing taken with
  | nil => rfl
  | cons l legs ih =>
    rw [bindExact, exactChoices, List.zipWith_cons_cons, ← ih]
    cases able : eligible b l with
    | none => simp [exactChoice, able, Leg.bindTo]
    | some r =>
      simp only [exactChoice, able, Option.bind_some]
      split
      · next found => simp only [found, Leg.bindTo, Option.toList_some, List.cons_append, List.nil_append]
      · next found => simp only [found, Leg.bindTo, Option.toList_none, List.nil_append]

theorem exactChoices_length (taken : List Pos) (legs : List Leg) :
    (exactChoices b o taken legs).length = legs.length := by
  induction legs generalizing taken with
  | nil => rfl
  | cons l legs ih => simp [exactChoices, ih]

/-- The choice for a leg is made with the choices of the legs before it taken. -/
theorem exactChoices_get {legs : List Leg} {i : Nat} (here : legs[i]? = some l) (taken : List Pos) :
    ∃ before, (exactChoices b o taken legs)[i]? = some (exactChoice b o before l)
      ∧ ∀ p, p ∈ before ↔ p ∈ taken ∨ ∃ j < i, (exactChoices b o taken legs)[j]? = some (some p) := by
  induction legs generalizing taken i with
  | nil => cases here
  | cons first legs ih =>
    cases i with
    | zero =>
      cases here
      exact ⟨taken, rfl, by simp⟩
    | succ i =>
      obtain ⟨before, choice, members⟩ := ih here ((exactChoice b o taken first).toList ++ taken)
      refine ⟨before, choice, fun p => (members p).trans ?_⟩
      simp only [List.mem_append, Option.mem_toList, Nat.exists_lt_succ_left, exactChoices, List.getElem?_cons_zero,
        List.getElem?_cons_succ, Option.some.injEq]
      tauto

/-- What the exact step binds to a leg: the lowest position that is free and resolved to its number. -/
theorem exactChoice_spec {taken : List Pos} (able : eligible b l = some r) :
    (exactChoice b o taken l = some .one ↔ resolvedTo (o.get .one) r = true ∧ .one ∉ taken)
    ∧ (exactChoice b o taken l = some .two ↔ (resolvedTo (o.get .two) r = true ∧ .two ∉ taken)
        ∧ ¬ (resolvedTo (o.get .one) r = true ∧ .one ∉ taken)) := by
  simp only [exactChoice, able, Option.bind_some, List.find?_cons, List.find?_nil]
  have is (p : Pos) : (resolvedTo (o.get p) r = true ∧ p ∉ taken)
      ↔ (!taken.contains p && resolvedTo (o.get p) r) = true := by simp [and_comm]
  rw [is, is]
  generalize (!taken.contains Pos.one && resolvedTo (o.get .one) r) = first
  generalize (!taken.contains Pos.two && resolvedTo (o.get .two) r) = second
  cases first <;> cases second <;> decide

/-! ### The fallback step (R102) -/

section
variable {legs : List Leg} {i : Nat} {p : Pos}

/-- The leg is left to the fallback step. -/
def Leg.isLeft (b : Book) (l : Leg) : Bool := (eligible b l).isSome && l.bound.isNone

/-- The position is left to the fallback step. -/
def isFree (o : PosPair PosOutcome) (legs : List Leg) (p : Pos) : Bool :=
  (o.get p).hasReads && !legs.any fun l => l.bound == some p

/-- Leg `i` is the one leg left, and the position the one left. -/
structure LastPair (b : Book) (o : PosPair PosOutcome) (legs : List Leg) (i : Nat) (p : Pos) : Prop where
  leg : ∃ l, legs[i]? = some l ∧ l.isLeft b = true
  alone : ∀ j l, legs[j]? = some l → l.isLeft b = true → j = i
  pos : isFree o legs p = true
  single : ∀ q, isFree o legs q = true → q = p

/-- A filter that leaves one element. -/
theorem filter_eq_single_iff {α : Type} {f : α → Bool} {xs : List α} {a : α} {i : Nat} (here : xs[i]? = some a) (holds : f a = true) :
    (∃ c, xs.filter f = [c]) ↔ ∀ j c, xs[j]? = some c → f c = true → j = i := by
  constructor
  · rintro ⟨c, single⟩ j d there also
    obtain ⟨before, after, rfl, none, -, rest⟩ := List.filter_eq_cons_iff.1 single
    have only (k : Nat) (e : α) (at_ : (before ++ c :: after)[k]? = some e) (fe : f e = true) : k = before.length := by
      rcases Nat.lt_trichotomy k before.length with below | same | above
      · rw [List.getElem?_append_left below] at at_
        exact absurd fe (none e (List.mem_of_getElem? at_))
      · exact same
      · obtain ⟨d, rfl⟩ : ∃ d, k = before.length + (d + 1) := ⟨k - before.length - 1, by omega⟩
        rw [List.getElem?_append_right (by omega), Nat.add_sub_cancel_left, List.getElem?_cons_succ] at at_
        exact absurd fe (List.filter_eq_nil_iff.1 rest e (List.mem_of_getElem? at_))
    rw [only j d there also, only i a here holds]
  · intro unique
    obtain ⟨inside, is⟩ := List.getElem?_eq_some_iff.1 here
    refine ⟨a, List.filter_eq_cons_iff.2 ⟨xs.take i, xs.drop (i + 1), ?_, fun c mem fc => ?_, holds,
      List.filter_eq_nil_iff.2 fun c mem fc => ?_⟩⟩
    · rw [← is, List.getElem_cons_drop, List.take_append_drop]
    · obtain ⟨j, at_⟩ := List.mem_iff_getElem?.1 mem
      rw [List.getElem?_take] at at_
      split at at_
      · next below => exact absurd (unique j c at_ fc) (Nat.ne_of_lt below)
      · cases at_
    · obtain ⟨j, at_⟩ := List.mem_iff_getElem?.1 mem
      rw [List.getElem?_drop] at at_
      have := unique _ c at_ fc
      omega

theorem free_eq_single_iff {f : Pos → Bool} : [Pos.one, Pos.two].filter f = [p] ↔ f p = true ∧ ∀ q, f q = true → q = p := by
  have all {P : Pos → Prop} : (∀ q, P q) ↔ P .one ∧ P .two := ⟨fun h => ⟨h _, h _⟩, fun h q => by cases q <;> simp [h]⟩
  rw [all]
  cases one : f .one <;> cases two : f .two <;> cases p <;> simp [one, two]

theorem bindFallback_eq (legs : List Leg) : bindFallback b o legs =
    match legs.filter (Leg.isLeft b), [Pos.one, Pos.two].filter (isFree o legs) with
    | [_], [p] => legs.map fun l =>
      if l.isLeft b then { l with bound := some p, container := fallbackVerdict (o.get p) } else l
    | _, _ => legs := rfl

/-- The fallback step binds the one leg left to the one position left. -/
theorem bindFallback_of_last (last : LastPair b o legs i p) (here : legs[i]? = some l) :
    (bindFallback b o legs)[i]? = some { l with bound := some p, container := fallbackVerdict (o.get p) } := by
  obtain ⟨l', here', isLeft⟩ := last.leg
  cases here.symm.trans here'
  obtain ⟨c, single⟩ := (filter_eq_single_iff here isLeft).2 last.alone
  have free := free_eq_single_iff.2 ⟨last.pos, last.single⟩
  simp only [bindFallback_eq, single, free, List.getElem?_map, here, isLeft, if_true, Option.map_some]

/-- The fallback step leaves every other leg. -/
theorem bindFallback_of_other (other : ∀ p, ¬ LastPair b o legs i p) : (bindFallback b o legs)[i]? = legs[i]? := by
  rw [bindFallback_eq]
  split
  · next c p single free =>
    rw [List.getElem?_map]
    cases here : legs[i]? with
    | none => rfl
    | some l =>
      rw [Option.map_some]
      cases isLeft : l.isLeft b with
      | false => rfl
      | true =>
        obtain ⟨pos, only⟩ := free_eq_single_iff.1 free
        exact absurd ⟨⟨l, here, isLeft⟩, (filter_eq_single_iff here isLeft).1 ⟨c, single⟩, pos, only⟩ (other p)
  · rfl

theorem bindFallback_length (legs : List Leg) : (bindFallback b o legs).length = legs.length := by
  rw [bindFallback_eq]
  split
  · rw [List.length_map]
  · rfl

end

/-! ### The two steps together, leg by leg (R101, R102) -/

/-- The position that the exact step binds to leg `i` of a list. -/
def exactAt (b : Book) (o : PosPair PosOutcome) (legs : List Leg) (i : Nat) : Option Pos :=
  (exactChoices b o [] legs)[i]?.join

section
variable {legs : List Leg} {i : Nat} {p : Pos}

theorem exactChoices_getElem? (here : legs[i]? = some l) :
    (exactChoices b o [] legs)[i]? = some (exactAt b o legs i) := by
  obtain ⟨before, choice, -⟩ := exactChoices_get (b := b) (o := o) here []
  rw [exactAt, choice]
  rfl

theorem exactAt_eq_some_iff : exactAt b o legs i = some p ↔ (exactChoices b o [] legs)[i]? = some (some p) :=
  Option.join_eq_some_iff

/-- What the exact step binds to a leg that takes part (R101). -/
theorem exactAt_spec (here : legs[i]? = some l) (able : eligible b l = some r) :
    (exactAt b o legs i = some .one ↔ resolvedTo (o.get .one) r = true ∧ ∀ j < i, exactAt b o legs j ≠ some .one)
    ∧ (exactAt b o legs i = some .two ↔
        (resolvedTo (o.get .two) r = true ∧ ∀ j < i, exactAt b o legs j ≠ some .two)
        ∧ ¬ (resolvedTo (o.get .one) r = true ∧ ∀ j < i, exactAt b o legs j ≠ some .one)) := by
  obtain ⟨before, choice, members⟩ := exactChoices_get (b := b) (o := o) here []
  have is : exactAt b o legs i = exactChoice b o before l := by rw [exactAt, choice]; rfl
  have free (p : Pos) : p ∉ before ↔ ∀ j < i, exactAt b o legs j ≠ some p := by
    simp [members, exactAt_eq_some_iff]
  rw [is, ← free, ← free]
  exact exactChoice_spec able

theorem exactAt_of_ineligible (out : ∀ l, legs[i]? = some l → eligible b l = none) : exactAt b o legs i = none := by
  cases here : legs[i]? with
  | none =>
    have : (exactChoices b o [] legs)[i]? = none := by
      rw [List.getElem?_eq_none_iff, exactChoices_length]
      exact List.getElem?_eq_none_iff.1 here
    rw [exactAt, this]
    rfl
  | some l =>
    obtain ⟨before, choice, -⟩ := exactChoices_get (b := b) (o := o) here []
    rw [exactAt, choice, exactChoice, out l here]
    rfl

theorem bindExact_getElem? (here : legs[i]? = some l) :
    (bindExact b o [] legs)[i]? = some (l.bindTo (exactAt b o legs i)) := by
  rw [bindExact_eq, List.getElem?_zipWith, here, exactChoices_getElem? here]

theorem bindExact_eq_some {m : Leg} (here : (bindExact b o [] legs)[i]? = some m) :
    ∃ l, legs[i]? = some l ∧ m = l.bindTo (exactAt b o legs i) := by
  cases at_ : legs[i]? with
  | none =>
    rw [bindExact_eq, List.getElem?_zipWith, at_] at here
    cases here
  | some l => exact ⟨l, rfl, Option.some_inj.1 (here.symm.trans (bindExact_getElem? at_))⟩

theorem bindTo_isLeft (unbound : l.bound = none) (c : Option Pos) :
    (l.bindTo c).isLeft b = true ↔ (∃ r, eligible b l = some r) ∧ c = none := by
  cases c with
  | none => simp [Leg.bindTo, Leg.isLeft, unbound, Option.isSome_iff_exists]
  | some p => simp [Leg.bindTo, Leg.isLeft]

section
variable (unbound : ∀ l ∈ legs, l.bound = none)
include unbound

theorem isFree_bindExact : isFree o (bindExact b o [] legs) p = true
    ↔ o.get p ≠ .unread ∧ ∀ i, exactAt b o legs i ≠ some p := by
  have taken : (bindExact b o [] legs).any (fun l => l.bound == some p) = true ↔ ∃ i, exactAt b o legs i = some p := by
    rw [List.any_eq_true]
    constructor
    · rintro ⟨m, mem, bound⟩
      obtain ⟨i, here⟩ := List.mem_iff_getElem?.1 mem
      obtain ⟨l, at_, rfl⟩ := bindExact_eq_some here
      refine ⟨i, ?_⟩
      cases choice : exactAt b o legs i with
      | none => simp [choice, Leg.bindTo, unbound l (List.mem_of_getElem? at_)] at bound
      | some q => simpa [choice, Leg.bindTo] using bound
    · rintro ⟨i, choice⟩
      cases at_ : legs[i]? with
      | none =>
        rw [exactAt_of_ineligible fun l here => by cases at_.symm.trans here] at choice
        cases choice
      | some l =>
        refine ⟨_, List.mem_of_getElem? (bindExact_getElem? at_), ?_⟩
        simp [choice, Leg.bindTo]
  have untaken := not_congr taken
  rw [Bool.not_eq_true, not_exists] at untaken
  rw [isFree, Bool.and_eq_true, hasReads_iff, Bool.not_eq_true', untaken]

/-- Which leg and which position the fallback step binds (R102). -/
theorem lastPair_bindExact : LastPair b o (bindExact b o [] legs) i p ↔
    (∃ l r, legs[i]? = some l ∧ eligible b l = some r ∧ exactAt b o legs i = none)
    ∧ (∀ j l r, legs[j]? = some l → eligible b l = some r → exactAt b o legs j = none → j = i)
    ∧ (o.get p ≠ .unread ∧ ∀ j, exactAt b o legs j ≠ some p)
    ∧ ∀ q, (o.get q ≠ .unread ∧ ∀ j, exactAt b o legs j ≠ some q) → q = p := by
  have left {j : Nat} {l : Leg} (here : legs[j]? = some l) : (l.bindTo (exactAt b o legs j)).isLeft b = true
      ↔ (∃ r, eligible b l = some r) ∧ exactAt b o legs j = none :=
    bindTo_isLeft (unbound l (List.mem_of_getElem? here)) _
  constructor
  · rintro ⟨⟨m, here, isLeft⟩, alone, pos, single⟩
    obtain ⟨l, at_, rfl⟩ := bindExact_eq_some here
    obtain ⟨⟨r, able⟩, none⟩ := (left at_).1 isLeft
    exact ⟨⟨l, r, at_, able, none⟩,
      fun j l r at_ able none => alone j _ (bindExact_getElem? at_) ((left at_).2 ⟨⟨r, able⟩, none⟩),
      (isFree_bindExact unbound).1 pos, fun q free => single q ((isFree_bindExact unbound).2 free)⟩
  · rintro ⟨⟨l, r, at_, able, none⟩, alone, pos, single⟩
    refine ⟨⟨_, bindExact_getElem? at_, (left at_).2 ⟨⟨r, able⟩, none⟩⟩, fun j m here isLeft => ?_,
      (isFree_bindExact unbound).2 pos, fun q free => single q ((isFree_bindExact unbound).1 free)⟩
    obtain ⟨l, at_, rfl⟩ := bindExact_eq_some here
    obtain ⟨⟨r, able⟩, none⟩ := (left at_).1 isLeft
    exact alone j l r at_ able none

end

end

/-! ### The plate (R98) -/

section
variable {x : Visit} {floor : Nat} {e : ReadEntry}

theorem foldl_betterRead_isSome (rs : List ReadEntry) (e : ReadEntry) : (rs.foldl betterRead (some e)).isSome = true := by
  induction rs generalizing e with
  | nil => rfl
  | cons f rs ih =>
    rw [List.foldl_cons]
    by_cases above : e.conf < f.conf
    · rw [show betterRead (some e) f = some f from if_pos above]
      exact ih f
    · rw [show betterRead (some e) f = some e from if_neg above]
      exact ih e

theorem bestRead_mem {rs : List ReadEntry} (best : bestRead rs = some e) : e ∈ rs :=
  (foldl_betterRead_mem e best).resolve_left nofun

/-- A read set that is not empty has a best read. -/
theorem exists_bestRead {rs : List ReadEntry} (read : rs ≠ []) : ∃ e ∈ rs, bestRead rs = some e := by
  cases rs with
  | nil => exact absurd rfl read
  | cons f rs =>
    obtain ⟨e, best⟩ := Option.isSome_iff_exists.1 (foldl_betterRead_isSome rs f)
    exact ⟨e, bestRead_mem best, best⟩

theorem qualifying_eq_nil (h : ∀ e ∈ x.plates, e.conf < floor) : qualifying floor x.plates = [] :=
  List.filter_eq_nil_iff.2 fun e mem => by simpa using h e mem

theorem exists_qualifying (h : ∃ e ∈ x.plates, floor ≤ e.conf) :
    ∃ e ∈ x.plates, bestRead (qualifying floor x.plates) = some e := by
  obtain ⟨f, mem, high⟩ := h
  have read : qualifying floor x.plates ≠ [] :=
    List.ne_nil_of_mem (List.mem_filter.2 ⟨mem, decide_eq_true high⟩)
  obtain ⟨e, mem, best⟩ := exists_bestRead read
  exact ⟨e, (List.mem_filter.1 mem).1, best⟩

theorem resolvePlate_of_unread (unread : qualifying floor x.plates = []) :
    x.resolvePlate b floor = { x with reasons := { x.reasons with plateUnread := true } } := by
  simp only [Visit.resolvePlate, unread]
  rfl

theorem resolvePlate_of_read (best : bestRead (qualifying floor x.plates) = some e) :
    x.resolvePlate b floor = { x with
      plate := some e
      reasons := { x.reasons with
        plateMismatch := x.reasons.plateMismatch || x.legs.any (plateDiffers b e.text) } } := by
  simp only [Visit.resolvePlate, best]

/-- The plate resolution touches the plate and its two reasons alone. -/
theorem resolvePlate_frame (x : Visit) (b : Book) (floor : Nat) : x.resolvePlate b floor = { x with
    plate := (x.resolvePlate b floor).plate
    reasons := { x.reasons with
      plateMismatch := (x.resolvePlate b floor).reasons.plateMismatch
      plateUnread := (x.resolvePlate b floor).reasons.plateUnread } } := by
  unfold Visit.resolvePlate
  split <;> rfl

theorem plateDiffers_iff {t : Text} :
    plateDiffers b t l = true ↔ ∃ r q, l.Books b r ∧ r.plate = some q ∧ q ≠ t := by
  simp only [Leg.books_iff, plateDiffers]
  cases b.held l.slot l.ref with
  | none => simp
  | some held =>
    obtain ⟨k, r⟩ := held
    cases plate : r.plate <;> simp_all

end

/-! ### Seal and damage verdicts (R115 to R118, R137, R138) -/

section
variable {c : Check} {x : SealSet} {expected : List Text} {t : Text} {floor : Nat} {rs : List ReadEntry}

theorem sealOutcome_of_unread (h : ∀ e ∈ rs, e.text ≠ t) : sealOutcome floor rs t = .missing := by
  have unread : rs.find? (fun e => e.text == t) = none := List.find?_eq_none.2 fun e mem => by simpa using h e mem
  rw [sealOutcome, unread]

theorem sealOutcome_of_first {e : ReadEntry} (h : FirstOf (fun q : ReadEntry => q.text = t) rs e) :
    sealOutcome floor rs t = if floor ≤ e.conf then .matched e.conf else .matchedWeak e.conf := by
  obtain ⟨before, after, split, is, others⟩ := h
  have read : rs.find? (fun e => e.text == t) = some e :=
    List.find?_eq_some_iff_append.2 ⟨by simpa using is, before, after, split, fun o mem => by simpa using others o mem⟩
  rw [sealOutcome, read]

theorem any_missing_iff : (sealFindings c x expected).seals.any (fun p => p.2 == .missing) = true
    ↔ ∃ t ∈ expected, sealOutcome c.sealFloor x.entries t = .missing := by
  simp [sealFindings]

theorem any_weak_iff : (sealFindings c x expected).seals.any (fun p => p.2.isWeak) = true
    ↔ ∃ t ∈ expected, ∃ k, sealOutcome c.sealFloor x.entries t = .matchedWeak k := by
  have weak (q : SealOutcome) : q.isWeak = true ↔ ∃ k, q = .matchedWeak k := by cases q <;> simp [SealOutcome.isWeak]
  simp [sealFindings, weak]

/-- The seal verdict of a leg with no expected seal (R116). -/
theorem verdict_of_none : (sealFindings c x []).verdict
    = if (sealFindings c x []).extrasCount = 0 then .noneExpected else .unexpected := by
  simp only [SealFindings.verdict, sealFindings, List.map_nil, List.isEmpty_nil, true_and, if_true]

/-- The seal verdict of a leg with expected seals (R116). -/
theorem verdict_of_expected (h : expected ≠ []) :
    (0 < (sealFindings c x expected).extrasCount → (sealFindings c x expected).verdict = .mismatch)
    ∧ ((sealFindings c x expected).extrasCount = 0 →
        ((∃ t ∈ expected, sealOutcome c.sealFloor x.entries t = .missing) →
          (sealFindings c x expected).verdict = .missing)
        ∧ ((∀ t ∈ expected, sealOutcome c.sealFloor x.entries t ≠ .missing) →
            ((∃ t ∈ expected, ∃ k, sealOutcome c.sealFloor x.entries t = .matchedWeak k) → c.weakOn = false →
              (sealFindings c x expected).verdict = .weak)
            ∧ ((∀ t ∈ expected, ∀ k, sealOutcome c.sealFloor x.entries t ≠ .matchedWeak k) ∨ c.weakOn = true →
              (sealFindings c x expected).verdict = .intact))) := by
  have some_ : (sealFindings c x expected).seals.isEmpty ≠ true := by simp [sealFindings, h]
  have weakOn : (sealFindings c x expected).weakOn = c.weakOn := rfl
  rw [SealFindings.verdict, if_neg fun both => some_ both.1, if_neg some_, weakOn]
  refine ⟨fun extra => if_pos extra, fun none => ?_⟩
  rw [if_neg (Nat.not_lt.2 (Nat.le_of_eq none))]
  refine ⟨fun missing => if_pos (any_missing_iff.2 missing), fun read => ?_⟩
  rw [if_neg fun missing => ?absent]
  case absent =>
    obtain ⟨t, mem, gone⟩ := any_missing_iff.1 missing
    exact read t mem gone
  refine ⟨fun weak off => if_pos ⟨any_weak_iff.2 weak, off⟩, fun fine => if_neg fun ⟨weak, off⟩ => ?_⟩
  obtain ⟨t, mem, k, is⟩ := any_weak_iff.1 weak
  rcases fine with strong | on
  · exact strong t mem k is
  · simp [on] at off

/-- A leg that the bind steps bound, judged (R118, R137). -/
theorem judgeLeg_of_bound {y : Visit} {p : Pos} (bound : l.bound = some p) (books : l.Books b r) :
    judgeLeg b c y l = { l with
      findings := some (sealFindings c (y.seals.get p) (expectedSeals l r))
      sealVerdict := (sealFindings c (y.seals.get p) (expectedSeals l r)).verdict
      damage := some (legDamage (y.stability.get p))
      damageVerdict := damageVerdict (legDamage (y.stability.get p)).cls r.declared } := by
  obtain ⟨k, held⟩ := Leg.books_iff.1 books
  simp only [judgeLeg, bound, held]

theorem judgeLeg_of_unbound {y : Visit} (bound : l.bound = none) : judgeLeg b c y l = l := by
  simp only [judgeLeg, bound]

/-- Judging touches the verdicts and what they are drawn from alone. -/
theorem judgeLeg_frame (b : Book) (c : Check) (y : Visit) (l : Leg) : judgeLeg b c y l = { l with
    sealVerdict := (judgeLeg b c y l).sealVerdict, findings := (judgeLeg b c y l).findings
    damage := (judgeLeg b c y l).damage, damageVerdict := (judgeLeg b c y l).damageVerdict } := by
  unfold judgeLeg
  split <;> rfl

end

/-! ### A clean visit (R147, R148) -/

theorem Leg.isPickup_iff : l.isPickup = true ↔ l.kind = some .importPickup ∨ l.kind = some .emptyPickup := by
  cases kind : l.kind with
  | none => simp [Leg.isPickup, kind]
  | some k => cases k <;> simp [Leg.isPickup, kind, Kind.isDrop]

/-- The visit as the end of CHECKING judges it, written out. -/
theorem judge_eq (x : Visit) (b : Book) (c : Check) : x.judge b c =
    let o : PosPair PosOutcome :=
      ⟨resolvePos c.containerFloor x.containers.one, resolvePos c.containerFloor x.containers.two⟩
    let p := x.resolvePlate b c.plateFloor
    { x with
      plate := p.plate
      outcomes := some o
      legs := (bindFallback b o (bindExact b o [] x.legs)).map (judgeLeg b c x)
      reasons := { x.reasons with
        plateMismatch := p.reasons.plateMismatch
        plateUnread := p.reasons.plateUnread
        linkLoss := x.reasons.linkLoss || x.linkLoss } } := by
  unfold Visit.judge
  rw [resolvePlate_frame]
  rfl

/-- The findings of a visit that is judged clean, one by one (R147, R148). -/
theorem isClean_iff (y : Visit) : y.isClean = true ↔ y.legs ≠ [] ∧ y.reasons = .none ∧ ∀ l ∈ y.legs, l.passes = true := by
  simp only [Visit.isClean, Reasons.isEmpty, Bool.and_eq_true, Bool.not_eq_true', List.isEmpty_eq_false_iff,
    List.all_eq_true, beq_iff_eq]
  tauto

theorem Leg.passes_iff (l : Leg) : l.passes = true ↔
    l.exception = none ∧ (l.window = .onTime ∨ l.window = .transferred)
    ∧ (l.container = .matched ∨ l.isPickup = true ∧ l.container = .notApplicable)
    ∧ (l.sealVerdict = .intact ∨ l.sealVerdict = .noneExpected ∨ l.isPickup = true ∧ l.sealVerdict = .notApplicable)
    ∧ (l.damageVerdict = .pass ∨ l.damageVerdict = .passDeclared
      ∨ l.isPickup = true ∧ l.damageVerdict = .notApplicable) := by
  simp only [Leg.passes, Bool.and_eq_true, Bool.or_eq_true, beq_iff_eq, Option.isNone_iff_eq_none, or_assoc, and_assoc]

/-- A leg after the two bind steps, not judged yet. -/
theorem bound_getElem? {legs : List Leg} {i : Nat} (unbound : ∀ l ∈ legs, l.bound = none) (here : legs[i]? = some l) :
    ∃ m, (bindFallback b o (bindExact b o [] legs))[i]? = some m
      ∧ m = { l with bound := m.bound, container := m.container }
      ∧ (∀ p, exactAt b o legs i = some p → m.bound = some p ∧ m.container = .matched)
      ∧ (∀ p, LastPair b o (bindExact b o [] legs) i p → m.bound = some p ∧ m.container = fallbackVerdict (o.get p))
      ∧ (exactAt b o legs i = none → (∀ p, ¬ LastPair b o (bindExact b o [] legs) i p) → m = l) := by
  by_cases last : ∃ p, LastPair b o (bindExact b o [] legs) i p
  · obtain ⟨p, last⟩ := last
    obtain ⟨-, -, -, -, none⟩ := ((lastPair_bindExact unbound).1 last).1
    refine ⟨_, bindFallback_of_last last (bindExact_getElem? here), ?_, fun q choice => (by cases none.symm.trans choice),
      fun q also => ?_, fun _ other => absurd last (other p)⟩
    · rw [none, Leg.bindTo]
    · cases last.single q also.pos
      exact ⟨rfl, rfl⟩
  · refine ⟨_, (bindFallback_of_other (not_exists.1 last)).trans (bindExact_getElem? here), ?_, fun p choice => ?_,
      fun p is => absurd ⟨p, is⟩ last, fun none _ => ?_⟩
    · cases exactAt b o legs i <;> rfl
    · rw [choice, Leg.bindTo]
      exact ⟨rfl, rfl⟩
    · rw [none, Leg.bindTo]

end Sys2Proof.Machine

open Sys2Proof Sys2Proof.Machine in
/-- Settles O39. -/
theorem judgingBindsTheLegsAndFindsTheirVerdicts : Obligations.JudgingBindsTheLegsAndFindsTheirVerdicts := by
  refine ⟨fun x b c unbound => ?_, fun y => (isClean_iff y).trans ?_⟩
  case refine_2 =>
    simp only [Leg.passes_iff, Leg.isPickup_iff]
    rfl
  intro y o eligible' equal
  let pair : PosPair PosOutcome := ⟨o .one, o .two⟩
  have get (p : Pos) : pair.get p = o p := by cases p <;> rfl
  have able (i : Nat) (r : Booking) : eligible' i r ↔ ∃ l, x.legs[i]? = some l ∧ eligible b l = some r := by
    simp only [eligible', eligible_eq_some]
  have resolved (p : Pos) (r : Booking) : resolvedTo (pair.get p) r = true ↔ equal p r := by rw [get, resolvedTo_iff]
  have judged : y = _ := judge_eq x b c
  have plate : y.plate = (x.resolvePlate b c.plateFloor).plate := by rw [judged]
  have unread : y.reasons.plateUnread = (x.resolvePlate b c.plateFloor).reasons.plateUnread := by rw [judged]
  have mismatch : y.reasons.plateMismatch = (x.resolvePlate b c.plateFloor).reasons.plateMismatch := by rw [judged]
  have legs : y.legs = (bindFallback b pair (bindExact b pair [] x.legs)).map (judgeLeg b c x) := by rw [judged]; rfl
  refine ⟨exactAt b pair x.legs, ?_⟩
  intro free left unbound' last
  have isLast (i : Nat) (p : Pos) : LastPair b pair (bindExact b pair [] x.legs) i p ↔ last i p := by
    rw [lastPair_bindExact unbound]
    simp only [last, left, unbound', able, get]
    constructor
    · rintro ⟨⟨l, r, here, is, none⟩, alone, pos, single⟩
      exact ⟨⟨⟨r, l, here, is⟩, none⟩, fun j ⟨⟨r, l, here, is⟩, none⟩ => alone j l r here is none, pos, single⟩
    · rintro ⟨⟨⟨r, l, here, is⟩, none⟩, alone, pos, single⟩
      exact ⟨⟨l, r, here, is, none⟩, fun j l r here is none => alone j ⟨⟨r, l, here, is⟩, none⟩, pos, single⟩
  refine ⟨fun i r is => ?exact, fun i none => ?ineligible, ?frame, fun low => ?unreadPlate, fun high => ?readPlate,
    ?length, fun i l m here there => ?leg⟩
  case exact =>
    obtain ⟨l, here, is⟩ := (able i r).1 is
    obtain ⟨one, two⟩ := exactAt_spec (o := pair) here is
    rw [resolved] at one
    rw [resolved, resolved] at two
    exact ⟨one, two.trans and_assoc⟩
  case ineligible =>
    refine exactAt_of_ineligible fun l here => ?_
    cases is : eligible b l with
    | none => rfl
    | some r => exact absurd ((able i r).2 ⟨l, here, is⟩) (none r)
  case frame =>
    rw [plate, unread, mismatch, legs, judged]
    rfl
  case unreadPlate =>
    rw [plate, unread, mismatch, resolvePlate_of_unread (qualifying_eq_nil low)]
    exact ⟨rfl, rfl, rfl⟩
  case readPlate =>
    obtain ⟨e, mem, best⟩ := exists_qualifying high
    rw [plate, unread, mismatch, resolvePlate_of_read best]
    refine ⟨rfl, e, mem, rfl, ?_⟩
    simp only [Bool.or_eq_true, List.any_eq_true, plateDiffers_iff]
  case length =>
    rw [legs, List.length_map, bindFallback_length, bindExact_eq, List.length_zipWith, exactChoices_length, Nat.min_self]
  case leg =>
    obtain ⟨k, at_, frame, exact_, fallback, keeps⟩ := bound_getElem? (b := b) (o := pair) unbound here
    rw [legs, List.getElem?_map, at_, Option.map_some, Option.some_inj] at there
    have same := judgeLeg_frame b c x k
    have bound : m.bound = k.bound := by rw [← there, same]
    have container : m.container = k.container := by rw [← there, same]
    refine ⟨fun p is => ?_, fun p is => ?_, fun none other => ?_, ?_, fun p r is books => ?_⟩
    · rw [bound, container]
      exact exact_ p is
    · obtain ⟨at_p, verdict⟩ := fallback p ((isLast i p).2 is)
      rw [bound, container, verdict, get]
      exact ⟨at_p, fun ⟨e, is⟩ => by rw [is]; rfl, fun ⟨e, is⟩ => by rw [is]; rfl⟩
    · have kept := keeps none fun p is => other p ((isLast i p).1 is)
      rw [← there, kept]
      exact judgeLeg_of_unbound (unbound l (List.mem_of_getElem? here))
    · rw [← there, same, frame]
    · have books' : k.Books b r := by rw [frame]; exact books
      have kind : expectedSeals k r = expectedSeals l r := by rw [frame]; rfl
      have is := (judgeLeg_of_bound (c := c) (y := x) (bound.symm.trans is) books').symm.trans there
      rw [kind] at is
      subst is
      intro entries overflow expected extras count position
      refine ⟨sealOutcome c.sealFloor entries, fun t => sealOutcome_of_unread, fun t e => sealOutcome_of_first, rfl,
        fun none => ?noSeal, fun given => (verdict_of_expected given).1, fun given exact_ => ((verdict_of_expected given).2 exact_).1,
        fun given exact_ => ((verdict_of_expected given).2 exact_).2, fun q result => ?scanned, fun result => ?notScanned⟩
      case noSeal =>
        have noSeals : expectedSeals l r = [] := none
        simp only [count, extras, none]
        change (sealFindings c (x.seals.get p) (expectedSeals l r)).verdict = _
        rw [noSeals]
        exact verdict_of_none
      case scanned =>
        have damage : legDamage (x.stability.get p) = ⟨q.cls, some q, position.scans⟩ := by
          simp only [legDamage, show (x.stability.get p).result = some q from result]
          rfl
        refine ⟨congrArg some damage, fun is => ?_, fun is => ?_, fun is => ?_⟩
        all_goals change damageVerdict (legDamage (x.stability.get p)).cls r.declared = _; rw [damage]
        · rcases is with is | is <;> simp only [is, damageVerdict]
        · simp only [is, damageVerdict]
        · rcases is with is | is <;> simp only [is, damageVerdict]
      case notScanned =>
        have damage : legDamage (x.stability.get p) = ⟨.notScanned, .none, 0⟩ := by
          simp only [legDamage, show (x.stability.get p).result = .none from result]
        refine ⟨congrArg some damage, ?_⟩
        change damageVerdict (legDamage (x.stability.get p)).cls r.declared = _
        rw [damage]
        rfl
end

section
/-!
PROOFS. The Yard Allocator: which destinations an allocation gives (R168 to R171), what it commits, and what a release
gives back (R178).
-/

namespace Sys2Proof.Machine

variable {s : State} {l : Leg} {h : Handle}

/-! ### The destination of one leg (R169 to R171) -/

theorem Leg.toPlace_iff : l.toPlace = true ↔ l.IsPlaced := by
  simp [Leg.toPlace, Leg.IsPlaced]

/-- The rules R169 to R171 give a leg a destination, some TEU and some bay places being taken by the legs before it. -/
def State.GivesAt (s : State) (before : Fin 48 → Nat) (inBay : Fin 4 → Nat) (l : Leg) : Dest → Prop
  | .block b => l.disposition = .yard ∧ ∃ k r, l.kind = some k ∧ l.Books s.book r
      ∧ ((k = .exportFull ∨ k = .emptyReturn) → ∃ g : Fin 32, r.group = some g.val
          ∧ FirstOf (fun c : Fin 48 => s.yard.blocks[c].Takes k (l.teu.getD 0) (before c)) s.yard.groups[g] b)
      ∧ ((k = .importPickup ∨ k = .emptyPickup) → r.block = some b.val ∧ s.yard.blocks[b].state ≠ .undefined)
  | .bay b => l.disposition = .inspect ∧ l.IsDrop
      ∧ FirstOf (fun c : Fin 4 => s.yard.bays[c].isOpen = true ∧ s.yard.bays[c].places.length + inBay c < 2)
          (List.finRange 4) b

theorem gives_iff {legs : List Leg} {dests : List (Option Dest)} {i : Nat} {d : Dest} :
    s.Gives legs dests i l d
      ↔ s.GivesAt (tentative legs dests i) (fun c => (dests.take i).count (some (.bay c))) l d := by
  cases d <;> rfl

theorem find?_eq_some_iff_firstOf {α : Type} {f : α → Bool} {p : α → Prop} (is : ∀ a, f a = true ↔ p a) {xs : List α}
    {a : α} : xs.find? f = some a ↔ FirstOf p xs a := by
  rw [List.find?_eq_some_iff_append, FirstOf]
  constructor
  · rintro ⟨holds, before, after, split, others⟩
    exact ⟨before, after, split, (is a).1 holds, fun c mem pc => by simpa [(is c).2 pc] using others c mem⟩
  · rintro ⟨before, after, split, holds, others⟩
    exact ⟨(is a).2 holds, before, after, split, fun c mem => by simpa using mt (is c).1 (others c mem)⟩

theorem Block.fits_iff {bl : Block} {k : Kind} {teu before : Nat} (drop : k.isDrop = true) :
    bl.fits k teu before = true ↔ bl.Takes k teu before := by
  have takes : bl.accepts.any (·.takes k) = true ↔ bl.accepts = some .both ∨ bl.accepts = some .exportFull ∧ k = .exportFull
      ∨ bl.accepts = some .emptyReturn ∧ k = .emptyReturn := by
    cases bl.accepts with
    | none => simp
    | some a => cases a <;> simp [Accepts.takes, drop]
  simp only [Block.fits, Bool.and_eq_true, beq_iff_eq, takes, decide_eq_true_iff, Block.Takes, and_assoc]

theorem not_isDrop_iff {k : Kind} : k.isDrop = false ↔ k = .importPickup ∨ k = .emptyPickup := by
  cases k <;> decide

section
variable {tb : List (Fin 48 × Nat)} {ty : List (Fin 4)} {k : Kind}

/-- The block of a yard drop leg is the first of its booking's group that takes it (R169). -/
theorem blockFor_eq_some (drop : k.isDrop = true) {b : Fin 48} : s.blockFor tb l k = some b ↔
    ∃ r, l.Books s.book r ∧ ∃ g : Fin 32, r.group = some g.val ∧
      FirstOf (fun c : Fin 48 => s.yard.blocks[c].Takes k (l.teu.getD 0) (tentativeTeu tb c)) s.yard.groups[g] b := by
  simp only [State.blockFor, Leg.books_iff]
  cases held : s.book.held l.slot l.ref with
  | none => simp
  | some p =>
    obtain ⟨j, bk⟩ := p
    cases group : bk.group with
    | none => simp [group]
    | some g =>
      by_cases lt : g < 32
      · simp only [group, dif_pos lt]
        rw [find?_eq_some_iff_firstOf fun c => Block.fits_iff drop]
        constructor
        · intro first
          exact ⟨bk, ⟨j, rfl⟩, ⟨g, lt⟩, group, first⟩
        · rintro ⟨r, ⟨j', same⟩, g', is, first⟩
          cases same
          cases group.symm.trans is
          exact first
      · simp only [group, dif_neg lt]
        refine ⟨nofun, ?_⟩
        rintro ⟨r, ⟨j', same⟩, g', is, -⟩
        cases same
        cases group.symm.trans is
        exact absurd g'.isLt lt

/-- The block of a pickup leg is its booking's, where it is defined (R170). -/
theorem pickupBlock_eq_some {b : Fin 48} : s.pickupBlock l = some b ↔
    ∃ r, l.Books s.book r ∧ r.block = some b.val ∧ s.yard.blocks[b].state ≠ .undefined := by
  simp only [State.pickupBlock, Leg.books_iff]
  cases held : s.book.held l.slot l.ref with
  | none => simp
  | some p =>
    obtain ⟨j, bk⟩ := p
    cases block : bk.block with
    | none => simp [block]
    | some c =>
      have only {P : Booking → Prop} : (∃ r, (∃ k, some (j, bk) = some (k, r)) ∧ P r) ↔ P bk := by
        constructor
        · rintro ⟨r, ⟨k, same⟩, holds⟩
          cases same
          exact holds
        · exact fun holds => ⟨bk, ⟨j, rfl⟩, holds⟩
      rw [only]
      by_cases lt : c < 48
      · simp only [block, dif_pos lt, Option.ite_none_left_eq_some, Option.some_inj]
        constructor
        · rintro ⟨defined, rfl⟩
          exact ⟨rfl, defined⟩
        · rintro ⟨rfl, defined⟩
          exact ⟨defined, rfl⟩
      · simp only [block, dif_neg lt, reduceCtorEq, false_iff]
        rintro ⟨is, -⟩
        cases is
        exact lt b.isLt

theorem bayFor_eq_some {b : Fin 4} : s.bayFor ty = some b ↔
    FirstOf (fun c : Fin 4 => s.yard.bays[c].isOpen = true ∧ s.yard.bays[c].places.length + ty.count c < 2)
      (List.finRange 4) b :=
  find?_eq_some_iff_firstOf fun c => by simp

/-- The tentative destination of a leg is what the rules give it. -/
theorem destFor_eq_some (placed : l.IsPlaced) {d : Dest} :
    s.destFor tb ty l = some d ↔ s.GivesAt (tentativeTeu tb) (fun c => ty.count c) l d := by
  obtain ⟨disposed, -⟩ := placed
  unfold State.destFor
  cases kind : l.kind with
  | none => cases d <;> simp [State.GivesAt, Leg.IsDrop, kind]
  | some k =>
    have isDrop : l.IsDrop ↔ k.isDrop = true := by rw [← Leg.isDrop_iff, kind, Option.any_some]
    dsimp only
    rcases disposed with yard | inspect
    · cases drop : k.isDrop with
      | true =>
        rw [if_pos rfl, if_neg (by simp [yard]), Option.map_eq_some_iff]
        cases d with
        | bay b => simp [State.GivesAt, yard]
        | block b =>
          have noPickup : ¬ (k = .importPickup ∨ k = .emptyPickup) := by rw [← not_isDrop_iff, drop]; simp
          simp only [Dest.block.injEq, exists_eq_right, blockFor_eq_some drop, State.GivesAt, yard, true_and]
          constructor
          · rintro ⟨r, books, group⟩
            exact ⟨k, r, kind, books, fun _ => group, fun pickup => absurd pickup noPickup⟩
          · rintro ⟨k', r, is, books, group, -⟩
            cases kind.symm.trans is
            exact ⟨r, books, group ((isDrop_iff k).1 drop)⟩
      | false =>
        rw [if_neg (by simp), if_neg (by simp [yard]), Option.map_eq_some_iff]
        cases d with
        | bay b => simp [State.GivesAt, yard]
        | block b =>
          have noDrop : ¬ (k = .exportFull ∨ k = .emptyReturn) := by rw [← isDrop_iff, drop]; simp
          simp only [Dest.block.injEq, exists_eq_right, pickupBlock_eq_some, State.GivesAt, yard, true_and]
          constructor
          · rintro ⟨r, books, block⟩
            exact ⟨k, r, kind, books, fun is => absurd is noDrop, fun _ => block⟩
          · rintro ⟨k', r, is, books, -, block⟩
            cases kind.symm.trans is
            exact ⟨r, books, block (not_isDrop_iff.1 drop)⟩
    · have noYard : l.disposition ≠ .yard := by simp [inspect]
      cases drop : k.isDrop with
      | true =>
        rw [if_pos rfl, if_pos inspect, Option.map_eq_some_iff]
        cases d with
        | bay b => simp only [Dest.bay.injEq, exists_eq_right, bayFor_eq_some, State.GivesAt, inspect, isDrop, drop, true_and]
        | block b => simp [State.GivesAt, noYard]
      | false =>
        rw [if_neg (by simp), if_pos inspect]
        cases d <;> simp [State.GivesAt, noYard, isDrop, drop]

end

/-! ### The destinations of a visit's legs (R168) -/

/-- The TEU that a leg with a destination takes in a block (R162). -/
def takenTeu (l : Leg) (d : Option Dest) (b : Fin 48) : Nat :=
  if l.kind.any Kind.isDrop && d == some (.block b) then l.teu.getD 0 else 0

/-- Every leg to be placed has the destination that the rules give it, and every other leg none (R168). -/
def State.Fits (s : State) (before : Fin 48 → Nat) (inBay : Fin 4 → Nat) (legs : List Leg) (dests : List (Option Dest)) :
    Prop :=
  dests.length = legs.length
    ∧ ∀ i l, legs[i]? = some l → (¬ l.IsPlaced → dests[i]? = some none)
      ∧ (l.IsPlaced → ∃ d, dests[i]? = some (some d)
        ∧ s.GivesAt (fun b => before b + tentative legs dests i b)
          (fun c => inBay c + (dests.take i).count (some (.bay c))) l d)

section
variable {before : Fin 48 → Nat} {inBay : Fin 4 → Nat} {legs : List Leg} {dests : List (Option Dest)}

theorem tentative_zero (legs : List Leg) (dests : List (Option Dest)) (b : Fin 48) : tentative legs dests 0 b = 0 := by
  simp [tentative]

theorem tentative_succ (l : Leg) (d : Option Dest) (i : Nat) (b : Fin 48) :
    tentative (l :: legs) (d :: dests) (i + 1) b = takenTeu l d b + tentative legs dests i b := by
  simp only [tentative, takenTeu, List.zip_cons_cons, List.take_succ_cons, List.filter_cons]
  split <;> simp

theorem fits_nil : s.Fits before inBay [] dests ↔ dests = [] := by
  simp [State.Fits]

theorem fits_cons {d : Option Dest} : s.Fits before inBay (l :: legs) (d :: dests) ↔
    ((¬ l.IsPlaced → d = none) ∧ (l.IsPlaced → ∃ e, d = some e ∧ s.GivesAt before inBay l e))
    ∧ s.Fits (fun b => before b + takenTeu l d b) (fun c => inBay c + [d].count (some (.bay c))) legs dests := by
  simp only [State.Fits, List.length_cons, Nat.add_right_cancel_iff]
  have count (c : Fin 4) (i : Nat) : ((d :: dests).take (i + 1)).count (some (Dest.bay c))
      = [d].count (some (.bay c)) + (dests.take i).count (some (.bay c)) := by
    rw [List.take_succ_cons, List.count_cons, Nat.add_comm]
    simp [List.count_cons]
  constructor
  · rintro ⟨length, at_⟩
    refine ⟨?_, length, fun i m here => ?_⟩
    · obtain ⟨passed, placed⟩ := at_ 0 l rfl
      simp only [List.getElem?_cons_zero, Option.some_inj, tentative_zero, List.take_zero, List.count_nil, Nat.add_zero]
        at passed placed
      exact ⟨passed, placed⟩
    · have next := at_ (i + 1) m here
      simp only [List.getElem?_cons_succ, tentative_succ, count, ← Nat.add_assoc] at next
      exact next
  · rintro ⟨⟨passed, placed⟩, length, at_⟩
    refine ⟨length, fun i m here => ?_⟩
    cases i with
    | zero =>
      cases here
      simp only [List.getElem?_cons_zero, Option.some_inj, tentative_zero, List.take_zero, List.count_nil, Nat.add_zero]
      exact ⟨passed, placed⟩
    | succ i =>
      simp only [List.getElem?_cons_succ, tentative_succ, count, ← Nat.add_assoc]
      exact at_ i m here

/-- The tentative destinations are those that the rules give, where every leg to be placed has one (R168). -/
theorem placeLegs_eq_some (tb : List (Fin 48 × Nat)) (ty : List (Fin 4)) :
    s.placeLegs tb ty legs = some dests ↔ s.Fits (tentativeTeu tb) (fun c => ty.count c) legs dests := by
  induction legs generalizing tb ty dests with
  | nil => rw [State.placeLegs, fits_nil, Option.some_inj, eq_comm]
  | cons l legs ih =>
    have steps {d : Option Dest} {tb' ty'} (block : ∀ b, tentativeTeu tb' b = tentativeTeu tb b + takenTeu l d b)
        (bay : ∀ c, List.count c ty' = List.count c ty + [d].count (some (.bay c)))
        (head : ∀ e, ((¬ l.IsPlaced → e = none) ∧ (l.IsPlaced → ∃ q, e = some q
          ∧ s.GivesAt (tentativeTeu tb) (fun c => ty.count c) l q)) ↔ e = d) :
        (s.placeLegs tb' ty' legs).map (d :: ·) = some dests
          ↔ s.Fits (tentativeTeu tb) (fun c => ty.count c) (l :: legs) dests := by
      rw [Option.map_eq_some_iff]
      cases dests with
      | nil => simp [State.Fits]
      | cons e dests =>
        rw [fits_cons, head]
        constructor
        · rintro ⟨rest, place, same⟩
          cases same
          refine ⟨rfl, ?_⟩
          simp only [← block, ← bay]
          exact (ih tb' ty').1 place
        · rintro ⟨rfl, fit⟩
          simp only [← block, ← bay] at fit
          exact ⟨dests, (ih tb' ty').2 fit, rfl⟩
    rw [State.placeLegs]
    by_cases placed : l.IsPlaced
    · rw [if_pos (Leg.toPlace_iff.2 placed)]
      have head {d : Dest} (gives : s.destFor tb ty l = some d) (e : Option Dest) : ((¬ l.IsPlaced → e = none)
          ∧ (l.IsPlaced → ∃ q, e = some q ∧ s.GivesAt (tentativeTeu tb) (fun c => ty.count c) l q)) ↔ e = some d := by
        constructor
        · rintro ⟨-, given⟩
          obtain ⟨q, rfl, is⟩ := given placed
          exact ((destFor_eq_some placed).2 is).symm.trans gives
        · rintro rfl
          exact ⟨absurd placed, fun _ => ⟨d, rfl, (destFor_eq_some placed).1 gives⟩⟩
      cases gives : s.destFor tb ty l with
      | none =>
        refine ⟨nofun, fun fit => ?_⟩
        obtain ⟨d, -, is⟩ := (fit.2 0 l rfl).2 placed
        simp only [tentative_zero, List.take_zero, List.count_nil, Nat.add_zero] at is
        cases gives.symm.trans ((destFor_eq_some placed).2 is)
      | some d =>
        cases d with
        | block b =>
          refine steps (fun c => ?_) (fun c => by simp) (head gives)
          simp only [takenTeu, Option.some_beq_some]
          cases l.kind.any Kind.isDrop with
          | false => simp
          | true =>
            by_cases same : b = c
            · subst same
              simp [tentativeTeu, Nat.add_comm]
            · have other : (Dest.block b == Dest.block c) = false := by simpa using same
              simp [tentativeTeu, same, other]
        | bay b =>
          refine steps (fun c => by simp [takenTeu]) (fun c => ?_) (head gives)
          by_cases same : b = c
          · simp [same]
          · simp [List.count_cons, same]
    · rw [if_neg (mt Leg.toPlace_iff.1 placed)]
      exact steps (fun c => by simp [takenTeu]) (fun c => by simp) fun e => by simp [placed]

end

/-! ### Changes of the blocks and bays -/

/-- A yard with a change made in each block and in each bay. -/
def Yard.mapped (y : Yard) (f : Fin 48 → Block → Block) (g : Fin 4 → Bay → Bay) : Yard :=
  { y with blocks := Vector.ofFn fun b => f b y.blocks[b], bays := Vector.ofFn fun b => g b y.bays[b] }

theorem Yard.mapped_mapped (y : Yard) (f f' : Fin 48 → Block → Block) (g g' : Fin 4 → Bay → Bay) :
    (y.mapped f g).mapped f' g' = y.mapped (fun b bl => f' b (f b bl)) fun b q => g' b (g b q) := by
  simp only [Yard.mapped, Fin.getElem_fin, Vector.getElem_ofFn, Fin.eta]

/-- A yard whose blocks and bays are given one by one. -/
theorem Yard.mapped_eq {y : Yard} {f : Fin 48 → Block → Block} {g : Fin 4 → Bay → Bay} {blocks : Vector Block 48}
    {bays : Vector Bay 4} (hf : ∀ b : Fin 48, blocks[b] = f b y.blocks[b]) (hg : ∀ b : Fin 4, bays[b] = g b y.bays[b]) :
    { y with blocks := blocks, bays := bays } = y.mapped f g := by
  have first : blocks = Vector.ofFn fun b => f b y.blocks[b] := by
    ext b hb : 1
    rw [Vector.getElem_ofFn]
    exact hf ⟨b, hb⟩
  have second : bays = Vector.ofFn fun b => g b y.bays[b] := by
    ext b hb : 1
    rw [Vector.getElem_ofFn]
    exact hg ⟨b, hb⟩
  rw [first, second]
  rfl

theorem Yard.mapped_self {y : Yard} {f : Fin 48 → Block → Block} {g : Fin 4 → Bay → Bay} (hf : ∀ b bl, f b bl = bl)
    (hg : ∀ b q, g b q = q) : y.mapped f g = y :=
  (Yard.mapped_eq (fun b => (hf b _).symm) fun b => (hg b _).symm).symm

theorem modBlock_eq {f : Block → Block} {b : Fin 48} {f' : Fin 48 → Block → Block} {g : Fin 4 → Bay → Bay}
    (same : ∀ bl, f' b bl = f bl) (other : ∀ c, c ≠ b → ∀ bl, f' c bl = bl) (hg : ∀ c q, g c q = q) (s : State) :
    s.modBlock b f = { s with yard := s.yard.mapped f' g } := by
  rw [← Yard.mapped_eq (blocks := s.yard.blocks.set b (f s.yard.blocks[b])) (bays := s.yard.bays) (fun c => ?_)
    fun c => (hg c _).symm]
  · rfl
  · by_cases is : c = b
    · subst is
      rw [same]
      exact modBlock_same s c f
    · rw [other c is]
      exact modBlock_other s f is

theorem modBay_eq {g : Bay → Bay} {b : Fin 4} {f : Fin 48 → Block → Block} {g' : Fin 4 → Bay → Bay}
    (same : ∀ q, g' b q = g q) (other : ∀ c, c ≠ b → ∀ q, g' c q = q) (hf : ∀ c bl, f c bl = bl) (s : State) :
    s.modBay b g = { s with yard := s.yard.mapped f g' } := by
  rw [← Yard.mapped_eq (blocks := s.yard.blocks) (bays := s.yard.bays.set b (g s.yard.bays[b]))
    (fun c => (hf c _).symm) (fun c => ?_)]
  · rfl
  · by_cases is : c = b
    · subst is
      rw [same]
      exact modBay_same s c g
    · rw [other c is]
      exact modBay_other s g is

/-- A series of changes of the blocks and bays. -/
theorem foldl_mapped {α : Type} {step : State → α → State} {f : α → Fin 48 → Block → Block} {g : α → Fin 4 → Bay → Bay}
    (is : ∀ s a, step s a = { s with yard := s.yard.mapped (f a) (g a) }) (l : List α) (s : State) :
    l.foldl step s = { s with
      yard := s.yard.mapped (fun b bl => l.foldl (fun bl a => f a b bl) bl) fun b q => l.foldl (fun q a => g a b q) q } := by
  induction l generalizing s with
  | nil =>
    have same : s.yard.mapped (fun _ bl => bl) (fun _ q => q) = s.yard := Yard.mapped_self (fun _ _ => rfl) fun _ _ => rfl
    simp only [List.foldl_nil, same]
  | cons a l ih =>
    rw [List.foldl_cons, ih, is]
    simp only [Yard.mapped_mapped, List.foldl_cons]

/-! ### What an allocation commits (R162, R166, R168) -/

/-- The places that a destination of leg `i` takes in a bay (R166). -/
def takenPlaces (h : Handle) (i : Nat) (d : Option Dest) (b : Fin 4) : List Place :=
  if d = some (.bay b) then [⟨h, i⟩] else []

theorem commitDest_eq (h : Handle) (p : (Leg × Option Dest) × Nat) (s : State) :
    s.commitDest h (p.2 + 1) p.1.1 p.1.2 = { s with
      yard := s.yard.mapped (fun b bl => { bl with reserved := bl.reserved + takenTeu p.1.1 p.1.2 b })
        fun b q => { q with places := q.places ++ takenPlaces h (p.2 + 1) p.1.2 b } } := by
  obtain ⟨⟨l, d⟩, i⟩ := p
  rcases d with _ | b | b
  · have same : s.yard.mapped (fun b bl => { bl with reserved := bl.reserved + takenTeu l none b })
        (fun b q => { q with places := q.places ++ takenPlaces h (i + 1) none b }) = s.yard :=
      Yard.mapped_self (fun b bl => by simp [takenTeu]) fun b q => by simp [takenPlaces]
    simp only [State.commitDest, same]
  · cases drop : l.kind.any Kind.isDrop with
    | true =>
      simp only [State.commitDest, drop, if_true]
      refine modBlock_eq (fun bl => ?_) (fun c other bl => ?_) (fun c q => by simp [takenPlaces]) s
      · simp [takenTeu, drop]
      · simp [takenTeu, Ne.symm other]
    | false =>
      have same : s.yard.mapped (fun c bl => { bl with reserved := bl.reserved + takenTeu l (some (.block b)) c })
          (fun c q => { q with places := q.places ++ takenPlaces h (i + 1) (some (.block b)) c }) = s.yard :=
        Yard.mapped_self (fun c bl => by simp [takenTeu, drop]) fun c q => by simp [takenPlaces]
      simp only [State.commitDest, drop, Bool.false_eq_true, if_false, same]
  · simp only [State.commitDest]
    refine modBay_eq (fun q => ?_) (fun c other q => ?_) (fun c bl => by simp [takenTeu]) s
    · simp [takenPlaces]
    · simp [takenPlaces, Ne.symm other]

theorem foldl_reserved (b : Fin 48) (ps : List (Leg × Option Dest)) (k : Nat) (bl : Block) :
    (ps.zipIdx k).foldl (fun (bl : Block) p => { bl with reserved := bl.reserved + takenTeu p.1.1 p.1.2 b }) bl
      = { bl with reserved := bl.reserved + ((ps.filter fun p => p.1.kind.any Kind.isDrop && p.2 == some (.block b)).map
          fun p => p.1.teu.getD 0).sum } := by
  induction ps generalizing k bl with
  | nil => rfl
  | cons p ps ih =>
    rw [List.zipIdx_cons, List.foldl_cons, ih, List.filter_cons]
    simp only [takenTeu]
    split <;> simp [Nat.add_assoc]

theorem foldl_places (h : Handle) (b : Fin 4) (legs : List Leg) (dests : List (Option Dest))
    (length : dests.length = legs.length) (k : Nat) (q : Bay) :
    ((legs.zip dests).zipIdx k).foldl (fun (q : Bay) p => { q with places := q.places ++ takenPlaces h (p.2 + 1) p.1.2 b }) q
      = { q with places := q.places
          ++ (((dests.zipIdx k).filter fun e => e.1 == some (.bay b)).map fun e => ⟨h, e.2 + 1⟩) } := by
  induction legs generalizing dests k q with
  | nil =>
    obtain rfl := List.length_eq_zero_iff.1 length
    simp
  | cons l legs ih =>
    cases dests with
    | nil => cases length
    | cons d dests =>
      rw [List.zip_cons_cons, List.zipIdx_cons, List.foldl_cons, ih dests (Nat.succ_inj.1 length), List.zipIdx_cons,
        List.filter_cons]
      simp only [takenPlaces, beq_iff_eq]
      split <;> simp

/-- All the destinations of a visit's legs committed (R168). -/
theorem commitAll_eq (s : State) (h : Handle) {legs : List Leg} {dests : List (Option Dest)}
    (length : dests.length = legs.length) :
    s.commitAll h legs dests = { s with yard := s.yard.committed h legs dests } := by
  rw [State.commitAll, foldl_mapped fun s p => commitDest_eq h p s]
  simp only [foldl_reserved, foldl_places h _ legs dests length]
  have all : (legs.zip dests).take legs.length = legs.zip dests := List.take_of_length_le (by simp [length])
  simp only [Yard.committed, Yard.mapped, tentative, all]

theorem withYard_modVisit {v : Fin 64} {x : Visit} (here : s.visit v = some x) (y : Yard) (f : Visit → Visit) :
    ({ s with yard := y } : State).modVisit v f
      = { s with visits := s.visits.set v { s.visits[v] with visit := some (f x) }, yard := y } := by
  have there : ({ s with yard := y } : State).visit v = some x := here
  rw [modVisit_eq there]

/-- An allocation, whole (R168). -/
theorem place_eq_some {v : Fin 64} {x : Visit} (here : s.visit v = some x) {dests : List (Option Dest)}
    (given : s.placeLegs [] [] x.legs = some dests) : s.place v = some { s with
      visits := s.visits.set v { s.visits[v] with
        visit := some { x with legs := List.zipWith Leg.setDest x.legs dests } }
      yard := s.yard.committed (s.handle v) x.legs dests } := by
  have length : dests.length = x.legs.length := ((placeLegs_eq_some [] []).1 given).1
  unfold State.place
  rw [here]
  simp only [given, commitAll_eq s _ length]
  rw [withYard_modVisit here]

theorem place_eq_none {v : Fin 64} {x : Visit} (here : s.visit v = some x) (given : s.placeLegs [] [] x.legs = none) :
    s.place v = none := by
  unfold State.place
  rw [here]
  simp only [given]

theorem enterYardWait_eq {v : Fin 64} {x : Visit} (here : s.visit v = some x) (n : Lane) : s.enterYardWait n v = { s with
    link := { s.link with changes := joinList (.visit v) s.link.changes }
    lanes := s.lanes.set n { s.lane n with dwell := ⟨.oneShot, (s.lane n).limits.yardWait, .yardWait, 0⟩ }
    visits := s.visits.set v { s.visits[v] with
      visit := some { x with state := .yardWait, holdStart := some (s.time.minute, s.time.phase) } }
    yard := { s.yard with queue := s.yard.queue ++ [s.handle v] } } := by
  unfold State.enterYardWait
  rw [modVisit_eq here]
  simp [State.handle, State.loadDwell, State.modLane, State.join, Limits.get, State.lane]

theorem retryOne_of_free (unnamed : s.named h = none) : s.retryOne h = s := by
  simp only [State.retryOne, unnamed]

theorem retryOne_of_unplaced {x : Visit} (named : s.named h = some x) (unplaced : s.place h.slot = none) :
    s.retryOne h = s := by
  simp only [State.retryOne, named, unplaced]

theorem retryOne_of_placed {x : Visit} {t : State} (named : s.named h = some x) (placed : s.place h.slot = some t) :
    s.retryOne h = (t.leaveQueue h).enterDirecting x.lane h.slot := by
  simp only [State.retryOne, named, placed]

end Sys2Proof.Machine

open Sys2Proof Sys2Proof.Machine in
/-- Settles O46. -/
theorem allocationPlacesAllLegsOrNone : Obligations.AllocationPlacesAllLegsOrNone := by
  refine ⟨fun s v x here => ?_, fun s => ?_⟩
  · intro fits directed
    have isFit (dests : List (Option Dest)) : fits dests ↔ s.placeLegs [] [] x.legs = some dests := by
      rw [placeLegs_eq_some, State.Fits]
      simp only [fits, gives_iff, tentativeTeu, List.filter_nil, List.map_nil, List.sum_nil, Nat.zero_add, List.count_nil]
    have setDest : directed = Leg.setDest := by
      funext l d
      cases d <;> rfl
    refine ⟨fun dests fit => ?_, fun none => ?_, fun n => ⟨fun t placed => ?_, fun unplaced => ?_⟩⟩
    · rw [setDest]
      exact place_eq_some here ((isFit dests).1 fit)
    · refine place_eq_none here ?_
      cases given : s.placeLegs [] [] x.legs with
      | none => rfl
      | some dests => exact absurd ((isFit dests).2 given) (none dests)
    · simp only [State.allocate, placed]
    · simp only [State.allocate, unplaced]
      exact enterYardWait_eq here n
  · refine ⟨fun i => (s.yard.queue.take i).foldl State.retryOne s, rfl, ?_, fun i h here => ?_⟩
    · dsimp only
      rw [List.take_length]
      rfl
    · have next : (s.yard.queue.take (i + 1)).foldl State.retryOne s
          = ((s.yard.queue.take i).foldl State.retryOne s).retryOne h := by
        rw [List.take_add_one, here, Option.toList_some, List.foldl_append, List.foldl_cons, List.foldl_nil]
      intro u
      dsimp only
      rw [next]
      exact ⟨retryOne_of_free, fun x named => ⟨retryOne_of_unplaced named, fun t placed => retryOne_of_placed named placed⟩⟩
end

section
/-!
PROOFS. The moves of a visit through its lane, written out (R77, R79, R155, R156, R195), the rejection of a visit (R83,
R180), and what a retry of the yard-wait queue leaves alone (R174); LANE_ABORT (R83) and LANE_RESET (R85).
-/

namespace Sys2Proof.Machine

variable {s t u : State} {n : Lane} {v : Fin 64} {x : Visit}

/-! ### Updates of the book alone (R18 to R21) -/

/-- A change of the book and the ring alone, which the book and the ring alone decide. -/
def ActsOnBook (f : State → State) : Prop :=
  ∀ s t : State, t.book = s.book → t.ring = s.ring → f t = { t with book := (f s).book, ring := (f s).ring }

theorem ActsOnBook.frame {f : State → State} (h : ActsOnBook f) (s : State) :
    f s = { s with book := (f s).book, ring := (f s).ring } := h s s rfl rfl

theorem ActsOnBook.book_eq {f : State → State} (h : ActsOnBook f) (book : t.book = s.book) (ring : t.ring = s.ring) :
    (f t).book = (f s).book := by rw [h s t book ring]

theorem ActsOnBook.ring_eq {f : State → State} (h : ActsOnBook f) (book : t.book = s.book) (ring : t.ring = s.ring) :
    (f t).ring = (f s).ring := by rw [h s t book ring]

theorem ActsOnBook.foldl {α : Type} {f : State → α → State} (h : ∀ a, ActsOnBook fun s => f s a) (l : List α) :
    ActsOnBook fun s => l.foldl f s := by
  induction l with
  | nil =>
    intro s t book ring
    simp only [List.foldl_nil, ← book, ← ring]
  | cons a l ih =>
    intro s t book ring
    have step := h a s t book ring
    have rest := ih (f s a) (f t a) ((h a).book_eq book ring) ((h a).ring_eq book ring)
    beta_reduce at step rest
    simp only [List.foldl_cons]
    rw [rest, step]

theorem revertBooking_actsOnBook (l : Leg) (h : Handle) : ActsOnBook fun s => s.revertBooking l h := by
  intro s t book ring
  simp only [State.revertBooking, book, ring]
  split
  · simp only [← book, ← ring]
  · split
    · split <;> simp only [← ring]
    · simp only [← book, ← ring]

theorem admitBooking_actsOnBook (l : Leg) (h : Handle) : ActsOnBook fun s => s.admitBooking l h := by
  intro s t book ring
  simp only [State.admitBooking, book, ring]
  split
  · simp only [← book, ← ring]
  · split
    · rfl
    · split <;> simp only [← book, ← ring]

theorem releaseBooking_actsOnBook (l : Leg) (h : Handle) : ActsOnBook fun s => s.releaseBooking l h := by
  intro s t book ring
  simp only [State.releaseBooking, book, ring]
  split
  · simp only [← book, ← ring]
  · split <;> simp only [← book, ← ring]

theorem reverted_actsOnBook (h : Handle) (legs : List Leg) : ActsOnBook fun s => s.reverted h legs :=
  ActsOnBook.foldl (fun l => revertBooking_actsOnBook l h) legs

/-! ### Moves of a visit, written out -/

theorem enterHeld_eq (here : s.visit v = some x) (n : Lane) : s.enterHeld n v = { s with
    link := { s.link with changes := joinList (.visit v) s.link.changes }
    lanes := s.lanes.set n { s.lane n with dwell := ⟨.oneShot, (s.lane n).limits.hold, .hold, 0⟩ }
    visits := s.visits.set v { s.visits[v] with
      visit := some { x with state := .held, holdStart := some (s.time.minute, s.time.phase) } } } := by
  unfold State.enterHeld
  rw [modVisit_eq here]
  rfl

/-- A lane that lets a truck out (R79, R83). -/
def LaneUnit.lettingOut (l : LaneUnit) (exit : Bool) : LaneUnit :=
  { l with exitSeen := exit, dwell := ⟨.repeating, l.limits.clear, .clear, 0⟩ }

theorem startReleasing_eq (s : State) (n : Lane) : s.startReleasing n =
    { s with lanes := s.lanes.set n ((s.lane n).lettingOut s.loops[n].exit) } := by
  simp [State.startReleasing, State.loadDwell, State.modLane, State.lane, LaneUnit.lettingOut, Limits.get]

/-- A visit in RELEASING (R79). -/
def Visit.releasing (x : Visit) : Visit := { x with state := .releasing, holdStart := none, timeoutDue := false }

theorem enterReleasing_eq (here : s.visit v = some x) (n : Lane) : s.enterReleasing n v = { s with
    lanes := s.lanes.set n ((s.lane n).lettingOut s.loops[n].exit)
    visits := s.visits.set v { s.visits[v] with visit := some x.releasing }
    signs := s.signs.set n { s.sign n with printDue := false } } := by
  unfold State.enterReleasing
  rw [modVisit_eq here, startReleasing_eq]
  rfl

theorem dropLegs_eq (here : s.visit v = some x) (which : Leg → Bool) : s.dropLegs v which =
    { s with
      book := (s.reverted (s.handle v) (x.legs.filter which)).book
      ring := (s.reverted (s.handle v) (x.legs.filter which)).ring
      visits := s.visits.set v { s.visits[v] with
        visit := some { x with legs := x.legs.map fun l => if which l then l.drop else l } } } := by
  have acts := (reverted_actsOnBook (s.handle v) (x.legs.filter which)).frame s
  have there : (s.reverted (s.handle v) (x.legs.filter which)).visit v = some x := by rw [acts]; exact here
  unfold State.dropLegs
  rw [here]
  change (s.reverted (s.handle v) (x.legs.filter which)).modVisit v _ = _
  rw [modVisit_eq there, acts]

theorem turnAway_eq (here : s.visit v = some x) (n : Lane) (src : DecisionSource) (out : ReleaseOutcome) :
    s.turnAway n v src out = { s with
      book := (s.reverted (s.handle v) x.legs).book
      ring := (s.reverted (s.handle v) x.legs).ring
      lanes := s.lanes.set n ((s.lane n).lettingOut s.loops[n].exit)
      visits := s.visits.set v { s.visits[v] with visit := some { x with
        legs := x.legs.map fun l => { l with disposition := .dropped, dest := none }
        source := some src
        outcome := some out
        state := .releasing
        holdStart := none
        timeoutDue := false } }
      signs := s.signs.set n { s.sign n with printDue := false } } := by
  unfold State.turnAway
  rw [dropLegs_eq here, List.filter_true]
  generalize (s.reverted (s.handle v) x.legs).book = book
  generalize (s.reverted (s.handle v) x.legs).ring = ring
  rw [modVisit_eq (x := { x with legs := x.legs.map fun l => { l with disposition := .dropped, dest := none } })
    (by simp [State.visit, Leg.drop]), enterReleasing_eq (x := { x with
      legs := x.legs.map fun l => { l with disposition := .dropped, dest := none }
      source := some src
      outcome := some out }) (by simp [State.visit])]
  simp [State.lane, State.sign, Visit.releasing]

/-! ### The report of directions and the entry to DIRECTING (R78, R187, R195) -/

theorem report_of_other (h : ∀ v x, s.Resident n v x → x.state ≠ .directing) : s.report n = s := by
  have none : s.residentIn n .directing = none := by
    rw [Option.eq_none_iff_forall_not_mem]
    rintro ⟨v, x⟩ mem
    obtain ⟨resident, state⟩ := residentIn_eq_some.1 mem
    exact h v x resident state
  simp only [State.report, none]

theorem report_of_reported (h : (s.sign n).reportMark = true) : s.report n = s := by
  unfold State.report
  split
  · exact if_pos h
  · rfl

theorem report_of_directing (h : s.Resident n v x) (state : x.state = .directing) (mark : (s.sign n).reportMark = false) :
    s.report n = { s with
      lanes := s.lanes.set n ((s.lane n).lettingOut s.loops[n].exit)
      visits := s.visits.set v { s.visits[v] with visit := some x.releasing }
      signs := s.signs.set n { s.sign n with reportMark := true, printDue := false } } := by
  have directing : s.residentIn n .directing = some (v, x) := residentIn_eq_some.2 ⟨h, state⟩
  have here : (s.modSign n fun g => { g with reportMark := true }).visit v = some x := h.2
  simp only [State.report, directing, mark, Bool.false_eq_true, if_false]
  rw [enterReleasing_eq here]
  simp [State.modSign, State.sign, State.lane]

/-- The state in which a visit has just entered DIRECTING, before any report (R78, R187). -/
def State.directed (s : State) (n : Lane) (v : Fin 64) (x : Visit) : State := { s with
  lanes := s.lanes.set n { s.lane n with dwell := .stopped }
  visits := s.visits.set v { s.visits[v] with visit := some { x with state := .directing, holdStart := none } }
  signs := s.signs.set n { s.sign n with reportMark := false, printDue := (s.sign n).cls == .ticket } }

theorem enterDirecting_eq (here : s.visit v = some x) (n : Lane) : s.enterDirecting n v =
    if ((s.directed n v x).sign n).effective = .off ∨ contentShown (s.directed n v x) n then (s.directed n v x).report n
    else s.directed n v x := by
  have entered : ((s.modVisit v fun x => { x with state := .directing, holdStart := none }).stopDwell n).modSign n
      (fun g => { g with reportMark := false, printDue := g.cls == .ticket }) = s.directed n v x := by
    rw [modVisit_eq here]
    rfl
  unfold State.enterDirecting
  dsimp only
  rw [entered]

/-! ### The rejection of a visit (R83, R144, R178, R180) -/

theorem Leg.holdsPlace_block {l : Leg} {b : Fin 48} (dest : l.dest = some (.block b)) : l.holdsPlace = l.reserves b := by
  simp only [Leg.holdsPlace, Leg.reserves, dest]
  cases l.disposition <;> cases l.done <;> simp

theorem Leg.holdsPlace_bay {l : Leg} {b : Fin 4} (dest : l.dest = some (.bay b)) : l.holdsPlace = l.standsIn b := by
  simp only [Leg.holdsPlace, Leg.standsIn, dest]
  cases l.disposition <;> cases l.done <;> simp

theorem Leg.reserves_of_dest {l : Leg} {b : Fin 48} (dest : l.dest ≠ some (.block b)) : l.reserves b = false := by
  simp [Leg.reserves, dest]

theorem Leg.standsIn_of_dest {l : Leg} {b : Fin 4} (dest : l.dest ≠ some (.bay b)) : l.standsIn b = false := by
  simp [Leg.standsIn, dest]

/-- The TEU of a leg's reservation in a block (R162). -/
def Leg.reservedTeu (l : Leg) (b : Fin 48) : Nat := if l.reserves b then l.teu.getD 0 else 0

theorem releaseLeg_eq (h : Handle) (p : Leg × Nat) (s : State) : s.releaseLeg h (p.2 + 1) p.1 = { s with
    yard := s.yard.mapped (fun b bl => { bl with reserved := bl.reserved - p.1.reservedTeu b })
      fun b q => { q with places := q.places.filter fun e => !(e == ⟨h, p.2 + 1⟩ && p.1.standsIn b) } } := by
  obtain ⟨l, i⟩ := p
  dsimp only
  have keeps (blocks : ∀ b, l.reserves b = false) (bays : ∀ b, l.standsIn b = false) :
      s.yard.mapped (fun b bl => { bl with reserved := bl.reserved - l.reservedTeu b })
        (fun b q => { q with places := q.places.filter fun e => !(e == ⟨h, i + 1⟩ && l.standsIn b) }) = s.yard :=
    Yard.mapped_self (fun b bl => by simp [Leg.reservedTeu, blocks]) fun b q => by simp [bays]
  unfold State.releaseLeg
  cases dest : l.dest with
  | none =>
    rw [keeps (fun b => Leg.reserves_of_dest (by simp [dest])) fun b => Leg.standsIn_of_dest (by simp [dest])]
    simp
  | some d =>
    cases d with
    | block b =>
      have noBay (c : Fin 4) : l.standsIn c = false := Leg.standsIn_of_dest (by simp [dest])
      have other (c : Fin 48) (is : c ≠ b) : l.reserves c = false := Leg.reserves_of_dest (by simp [dest, Ne.symm is])
      rw [Leg.holdsPlace_block dest]
      cases holds : l.reserves b with
      | true =>
        rw [if_pos rfl]
        refine modBlock_eq (fun bl => ?_) (fun c is bl => ?_) (fun c q => ?_) s
        · simp [Leg.reservedTeu, holds]
        · simp [Leg.reservedTeu, other c is]
        · simp [noBay]
      | false =>
        rw [keeps (fun c => ?_) noBay]
        · rfl
        · by_cases is : c = b
          · rw [is, holds]
          · exact other c is
    | bay b =>
      have noBlock (c : Fin 48) : l.reserves c = false := Leg.reserves_of_dest (by simp [dest])
      have other (c : Fin 4) (is : c ≠ b) : l.standsIn c = false := Leg.standsIn_of_dest (by simp [dest, Ne.symm is])
      rw [Leg.holdsPlace_bay dest]
      cases holds : l.standsIn b with
      | true =>
        rw [if_pos rfl]
        refine modBay_eq (fun q => ?_) (fun c is q => ?_) (fun c bl => ?_) s
        · simp [holds, bne]
        · simp [other c is]
        · simp [Leg.reservedTeu, noBlock]
      | false =>
        rw [keeps noBlock fun c => ?_]
        · rfl
        · by_cases is : c = b
          · rw [is, holds]
          · exact other c is

theorem foldl_released (b : Fin 48) (legs : List Leg) (k : Nat) (bl : Block) :
    (legs.zipIdx k).foldl (fun (bl : Block) p => { bl with reserved := bl.reserved - p.1.reservedTeu b }) bl
      = { bl with reserved := bl.reserved - reservedTeu b legs } := by
  induction legs generalizing k bl with
  | nil => rfl
  | cons l legs ih =>
    rw [List.zipIdx_cons, List.foldl_cons, ih]
    simp only [reservedTeu, Leg.reservedTeu, List.filter_cons]
    split <;> simp [Nat.sub_sub]

theorem foldl_left (h : Handle) (b : Fin 4) (legs : List (Leg × Nat)) (q : Bay) :
    legs.foldl (fun (q : Bay) p =>
        { q with places := q.places.filter fun e => !(e == ⟨h, p.2 + 1⟩ && p.1.standsIn b) }) q
      = { q with places := q.places.filter fun e => !legs.any fun p => e == ⟨h, p.2 + 1⟩ && p.1.standsIn b } := by
  induction legs generalizing q with
  | nil => simp
  | cons p legs ih =>
    rw [List.foldl_cons, ih]
    simp only [List.filter_filter, List.any_cons, Bool.not_or, Bool.and_comm]

/-- The reservations and the bay places of a visit's legs, given back (R178). -/
theorem releaseLegs_eq (s : State) (h : Handle) (legs : List Leg) :
    s.releaseLegs h legs = { s with yard := s.yard.givenBack h legs } := by
  rw [State.releaseLegs, foldl_mapped fun s p => releaseLeg_eq h p s]
  simp only [foldl_released, foldl_left]
  rfl

/-- A visit with its legs not done dropped, in the yard as it is (R83, R155). -/
theorem reject_withYard (here : s.visit v = some x) (yard : Yard) (queue : yard.queue = s.yard.queue)
    (why : RejectReason) :
    (((({ s with yard := yard } : State).dropLegs v fun l => !l.done).modVisit v fun y =>
        { y with
          state := .rejected
          rejectReason := some why
          outcome := none
          holdStart := none
          timeoutDue := false
          grading := .closed }).leaveQueue (s.handle v)).join (.visit v) = { s with
      link := { s.link with changes := joinList (.visit v) s.link.changes }
      book := (s.reverted (s.handle v) (x.legs.filter fun l => !l.done)).book
      ring := (s.reverted (s.handle v) (x.legs.filter fun l => !l.done)).ring
      visits := s.visits.set v { s.visits[v] with visit := some (x.rejected why) }
      yard := { yard with queue := s.yard.queue.filter (· != s.handle v) } } := by
  have acts := reverted_actsOnBook (s.handle v) (x.legs.filter fun l => !l.done)
  have there : ({ s with yard := yard } : State).visit v = some x := here
  have handle : ({ s with yard := yard } : State).handle v = s.handle v := rfl
  have book := acts.book_eq (s := s) (t := { s with yard := yard }) rfl rfl
  have ring := acts.ring_eq (s := s) (t := { s with yard := yard }) rfl rfl
  have legs : (x.legs.map fun l => if !l.done then l.drop else l)
      = x.legs.map fun l => if l.done then l else { l with disposition := .dropped, dest := none } := by
    refine List.map_congr_left fun l _ => ?_
    cases done : l.done <;> simp [Leg.drop, done]
  rw [dropLegs_eq there, handle, book, ring, legs]
  generalize (s.reverted (s.handle v) (x.legs.filter fun l => !l.done)).book = book'
  generalize (s.reverted (s.handle v) (x.legs.filter fun l => !l.done)).ring = ring'
  rw [modVisit_eq (x := { x with legs := x.legs.map fun l =>
    if l.done then l else { l with disposition := .dropped, dest := none } }) (by simp [State.visit])]
  simp [State.leaveQueue, State.join, Visit.rejected, queue]

theorem givenBack_queue (y : Yard) (h : Handle) (legs : List Leg) : (y.givenBack h legs).queue = y.queue := by
  simp only [Yard.givenBack]

/-- The rejection of a visit, whole (R83, R144, R180). -/
theorem rejectVisit_eq (here : s.visit v = some x) (why : RejectReason) : s.rejectVisit v why = s.rejection v x why := by
  unfold State.rejectVisit
  rw [here]
  dsimp only
  rw [releaseLegs_eq]
  exact reject_withYard here _ (givenBack_queue _ _ _) why

/-! ### What a retry leaves alone (R174) -/

theorem visit_set_same {slots : Vector VisitSlot 64} {y : VisitSlot} (h : s.visits = slots.set v y) :
    s.visit v = y.visit := by
  simp [State.visit, h]

theorem lane_set_same {lanes : Vector LaneUnit 12} {l : LaneUnit} (h : s.lanes = lanes.set n l) : s.lane n = l := by
  simp [State.lane, h]

theorem sign_set_same {signs : Vector Sign 12} {g : Sign} (h : s.signs = signs.set n g) : s.sign n = g := by
  simp [State.sign, h]

theorem visit_set_other {y : VisitSlot} (h : t.visits = s.visits.set v y) {w : Fin 64} (other : w ≠ v) :
    t.visit w = s.visit w := by
  simp [State.visit, h, Fin.val_inj, Ne.symm other]

theorem lane_set_other {l : LaneUnit} (h : t.lanes = s.lanes.set n l) {m : Lane} (other : m ≠ n) : t.lane m = s.lane m := by
  simp [State.lane, h, Fin.val_inj, Ne.symm other]

theorem sign_set_other {g : Sign} (h : t.signs = s.signs.set n g) {m : Lane} (other : m ≠ n) : t.sign m = s.sign m := by
  simp [State.sign, h, Fin.val_inj, Ne.symm other]

theorem gen_set {o : Option Visit} (h : t.visits = s.visits.set v { s.visits[v] with visit := o }) (w : Fin 64) :
    t.visits[w].gen = s.visits[w].gen := by
  by_cases same : w = v
  · subst same
    simp [h]
  · simp [h, Fin.val_inj, Ne.symm same]

/-- What a walk over the visits that some handles name can change: their lanes, themselves, the yard and the signs; and
a visit in DIRECTING on one of those lanes (R174, R195). -/
structure Retries (handles : List Handle) (s t : State) : Prop where
  frame : t = { s with lanes := t.lanes, visits := t.visits, yard := t.yard, signs := t.signs }
  gen : ∀ v : Fin 64, t.visits[v].gen = s.visits[v].gen
  queue : t.yard.queue.Sublist s.yard.queue
  visits : ∀ v x, s.visit v = some x → s.handle v ∉ handles → x.state ≠ .directing → t.visit v = some x
  stays : ∀ v x, s.visit v = some x → ∃ y, t.visit v = some y ∧ y.lane = x.lane
    ∧ (x.state.isResident = true → y.state.isResident = true)
  residents : ∀ n, (t.lane n).resident = (s.lane n).resident
  lanes : ∀ n, (s.lane n).resident = none → (s.lane n).dwell = .stopped → t.lane n = s.lane n

section
variable {handles : List Handle}

theorem Retries.refl (handles : List Handle) (s : State) : Retries handles s s where
  frame := rfl
  gen _ := rfl
  queue := .refl _
  visits _ _ here _ _ := here
  stays _ x here := ⟨x, here, rfl, id⟩
  residents _ := rfl
  lanes _ _ _ := rfl

theorem Retries.handle (h : Retries handles s t) (v : Fin 64) : t.handle v = s.handle v := by
  rw [State.handle, State.handle, h.gen]

theorem Retries.trans (h : Retries handles s t) (g : Retries handles t u) : Retries handles s u where
  frame := by rw [g.frame, h.frame]
  gen v := (g.gen v).trans (h.gen v)
  queue := g.queue.trans h.queue
  visits v x here out state := g.visits v x (h.visits v x here out state) (by rwa [h.handle]) state
  stays v x here := by
    obtain ⟨y, there, lane, resident⟩ := h.stays v x here
    obtain ⟨z, then_, lane', resident'⟩ := g.stays v y there
    exact ⟨z, then_, lane'.trans lane, fun is => resident' (resident is)⟩
  residents n := (g.residents n).trans (h.residents n)
  lanes n empty stopped := by
    have same := h.lanes n empty stopped
    rw [g.lanes n (by rw [same, empty]) (by rw [same, stopped]), same]

/-- A change of one visit, of its lane's timer and marks, and of its lane's sign. -/
theorem Retries.of_set {x y : Visit} {l : LaneUnit} (here : s.visit v = some x)
    (frame : t = { s with lanes := t.lanes, visits := t.visits, yard := t.yard, signs := t.signs })
    (visits : t.visits = s.visits.set v { s.visits[v] with visit := some y }) (lanes : t.lanes = s.lanes.set n l)
    (queue : t.yard.queue.Sublist s.yard.queue) (lane : y.lane = x.lane)
    (resident : x.state.isResident = true → y.state.isResident = true) (sits : l.resident = (s.lane n).resident)
    (named : s.handle v ∈ handles ∨ x.state = .directing)
    (empty : (s.lane n).resident = none → (s.lane n).dwell = .stopped → l = s.lane n) : Retries handles s t where
  frame := frame
  gen := gen_set visits
  queue := queue
  visits w z there out state := by
    by_cases same : w = v
    · subst same
      cases here.symm.trans there
      exact absurd named (not_or.2 ⟨out, state⟩)
    · rw [visit_set_other visits same, there]
  stays w z there := by
    by_cases same : w = v
    · subst same
      cases here.symm.trans there
      exact ⟨y, visit_set_same visits, lane, resident⟩
    · exact ⟨z, (visit_set_other visits same).trans there, rfl, id⟩
  residents m := by
    by_cases same : m = n
    · subst same
      rw [lane_set_same lanes, sits]
    · rw [lane_set_other lanes same]
  lanes m free stopped := by
    by_cases same : m = n
    · subst same
      rw [lane_set_same lanes, empty free stopped]
    · exact lane_set_other lanes same

theorem report_retries (s : State) (n : Lane) : Retries handles s (s.report n) := by
  by_cases mark : (s.sign n).reportMark = true
  · rw [report_of_reported mark]
    exact .refl _ s
  by_cases directing : ∃ v x, s.Resident n v x ∧ x.state = .directing
  · obtain ⟨v, x, resident, state⟩ := directing
    rw [report_of_directing resident state (Bool.not_eq_true _ ▸ mark)]
    refine .of_set (n := n) (l := (s.lane n).lettingOut s.loops[n].exit) (y := x.releasing) resident.2 rfl rfl rfl
      (.refl _) rfl (fun _ => rfl) rfl (.inr state) fun free => ?_
    cases free.symm.trans resident.1
  · rw [report_of_other fun v x resident state => directing ⟨v, x, resident, state⟩]
    exact .refl _ s

theorem directed_retries (here : s.visit v = some x) (named : s.handle v ∈ handles) (n : Lane) :
    Retries handles s (s.directed n v x) := by
  refine .of_set (n := n) (l := { s.lane n with dwell := .stopped }) (y := { x with state := .directing, holdStart := none })
    here rfl rfl rfl (.refl _) rfl (fun _ => rfl) rfl (.inl named) fun _ stopped => ?_
  rw [← stopped]

theorem enterDirecting_retries (here : s.visit v = some x) (named : s.handle v ∈ handles) (n : Lane) :
    Retries handles s (s.enterDirecting n v) := by
  rw [enterDirecting_eq here]
  have entered := directed_retries here named n
  split
  · exact entered.trans (report_retries _ n)
  · exact entered

/-- What an allocation that commits leaves alone. -/
theorem exists_of_place (placed : s.place v = some t) : ∃ x dests, s.visit v = some x
    ∧ s.placeLegs [] [] x.legs = some dests ∧ t = { s with
      visits := s.visits.set v { s.visits[v] with
        visit := some { x with legs := List.zipWith Leg.setDest x.legs dests } }
      yard := s.yard.committed (s.handle v) x.legs dests } := by
  cases here : s.visit v with
  | none => simp [State.place, here] at placed
  | some x =>
    cases given : s.placeLegs [] [] x.legs with
    | none => rw [place_eq_none here given] at placed; cases placed
    | some dests => exact ⟨x, dests, rfl, given, Option.some_inj.1 (placed.symm.trans (place_eq_some here given))⟩

theorem committed_queue (y : Yard) (h : Handle) (legs : List Leg) (dests : List (Option Dest)) :
    (y.committed h legs dests).queue = y.queue := by
  simp only [Yard.committed]

theorem retryOne_retries {h : Handle} (mem : h ∈ handles) (s : State) : Retries handles s (s.retryOne h) := by
  cases named : s.named h with
  | none =>
    rw [retryOne_of_free named]
    exact .refl _ s
  | some x =>
    cases placed : s.place h.slot with
    | none =>
      rw [retryOne_of_unplaced named placed]
      exact .refl _ s
    | some t =>
      have own : s.handle h.slot = h := by
        unfold State.named at named
        split at named
        · next gen => rw [State.handle, show s.visits[h.slot].gen = h.gen from gen]
        · cases named
      obtain ⟨y, dests, here, -, rfl⟩ := exists_of_place placed
      rw [retryOne_of_placed named placed]
      have moved : Retries handles s (({ s with
          visits := s.visits.set h.slot { s.visits[h.slot] with
            visit := some { y with legs := List.zipWith Leg.setDest y.legs dests } }
          yard := s.yard.committed (s.handle h.slot) y.legs dests } : State).leaveQueue h) := by
        have queue := committed_queue s.yard (s.handle h.slot) y.legs dests
        generalize s.yard.committed (s.handle h.slot) y.legs dests = yard at queue ⊢
        refine .of_set (n := 0) (l := s.lane 0) (y := { y with legs := List.zipWith Leg.setDest y.legs dests })
          here rfl rfl (by simp [State.leaveQueue, State.lane]) ?_ rfl id rfl (.inl (by rwa [own])) fun _ _ => rfl
        rw [← queue]
        exact List.filter_sublist
      obtain ⟨z, there, -⟩ := moved.stays h.slot y here
      exact moved.trans (enterDirecting_retries there (by rw [moved.handle, own]; exact mem) _)

theorem foldl_retryOne_retries {l : List Handle} (mem : ∀ h ∈ l, h ∈ handles) (s : State) :
    Retries handles s (l.foldl State.retryOne s) := by
  induction l generalizing s with
  | nil => exact .refl _ s
  | cons h l ih =>
    rw [List.forall_mem_cons] at mem
    exact (retryOne_retries mem.1 s).trans (ih mem.2 _)

theorem retry_retries (s : State) : Retries s.yard.queue s s.retry := foldl_retryOne_retries (fun _ mem => mem) s

end

end Sys2Proof.Machine
end

section
/-!
PROOFS. LANE_ABORT (R83) and LANE_RESET (R82, R85).
-/

namespace Sys2Proof.Machine

variable {s t u w : State} {f : ReqFrame} {rest : List ReqFrame} {n : Lane} {v : Fin 64} {x : Visit}

/-- A request that its owner takes and that ends with the jobs due, in whatever state the owner left. -/
theorem ends_with_jobs {α : Type} {code : Byte} {dec : Dec α} {serve : α → State → Answer} {a : α} {fields : List Byte}
    (ready : s.Ready code f rest) (decoded : decodeAll dec f.fields = some a)
    (answer : serve a (s.taken rest) = accept w.startJobs fields) :
    live s (takeRequest code dec serve s) = .next (w.startJobs.answered f .ok fields)
      ∧ w.startJobs = { w with signs := w.startJobs.signs } ∧ SignsMayStart w w.startJobs :=
  ⟨live_takeRequest_of_serve ready decoded answer, startJobs_eq w, startJobs_mayStart w⟩

section
variable (same : t = { w with signs := t.signs })
include same

theorem visit_of_signs (v : Fin 64) : t.visit v = w.visit v := by
  rw [same]
  rfl

theorem handle_of_signs (v : Fin 64) : t.handle v = w.handle v := by
  rw [same]
  rfl

theorem lane_of_signs (n : Lane) : t.lane n = w.lane n := by
  rw [same]
  rfl

theorem yard_of_signs : t.yard = w.yard := by
  rw [same]

end

theorem startJobs_visit (w : State) (v : Fin 64) : w.startJobs.visit v = w.visit v := visit_of_signs (startJobs_eq w) v

theorem startJobs_handle (w : State) (v : Fin 64) : w.startJobs.handle v = w.handle v := handle_of_signs (startJobs_eq w) v

theorem startJobs_lane (w : State) (n : Lane) : w.startJobs.lane n = w.lane n := lane_of_signs (startJobs_eq w) n

theorem startJobs_yard (w : State) : w.startJobs.yard = w.yard := yard_of_signs (startJobs_eq w)

/-- A rejected visit keeps its slot, its record and its place outside the queue in a retry that follows (R174). -/
theorem retryIf_of_rejected {why : RejectReason} (here : u.visit v = some (x.rejected why))
    (out : u.handle v ∉ u.yard.queue) (b : Bool) :
    (u.retryIf b).visit v = some (x.rejected why) ∧ (u.retryIf b).handle v = u.handle v
      ∧ u.handle v ∉ (u.retryIf b).yard.queue := by
  cases b with
  | false => exact ⟨here, rfl, out⟩
  | true =>
    have retries := retry_retries u
    exact ⟨retries.visits v _ here out (by simp [Visit.rejected]), retries.handle v,
      fun mem => out (retries.queue.subset mem)⟩

theorem rejection_visit (s : State) (v : Fin 64) (x : Visit) (why : RejectReason) :
    (s.rejection v x why).visit v = some (x.rejected why) :=
  visit_set_same (y := { s.visits[v] with visit := some (x.rejected why) }) rfl

theorem rejection_gen (s : State) (v w : Fin 64) (x : Visit) (why : RejectReason) :
    (s.rejection v x why).visits[w].gen = s.visits[w].gen :=
  gen_set rfl w

theorem rejection_handle (s : State) (v w : Fin 64) (x : Visit) (why : RejectReason) :
    (s.rejection v x why).handle w = s.handle w := by
  rw [State.handle, rejection_gen, State.handle]

theorem rejection_queue (s : State) (v : Fin 64) (x : Visit) (why : RejectReason) :
    (s.rejection v x why).yard.queue = s.yard.queue.filter (· != s.handle v) := rfl

theorem residentHolds_of_resident (h : s.Resident n v x) : s.residentHolds n = x.legs.any Leg.holdsPlace := by
  simp only [State.residentHolds, residentVisit_eq_some.2 h]

/-! ### LANE_ABORT (R83) -/

/-- The state after an abort, before any retry (R83). -/
def State.aborted (s : State) (n : Lane) (v : Fin 64) (x : Visit) : State := { s.rejection v x .aborted with
  engine := { s.engine with waiting := s.engine.waiting.set n none }
  lanes := s.lanes.set n { s.lane n with
    resident := none
    releasing := true
    exitSeen := s.loops[n].exit
    dwell := ⟨.repeating, (s.lane n).limits.clear, .clear, 0⟩ }
  grader := { s.grader with lanes := s.grader.lanes.set n { s.grader.lanes[n] with pending := none } }
  signs := s.signs.set n { s.sign n with abortSubject := some (s.handle v), printDue := false } }

theorem abortVisit_eq (here : s.visit v = some x) (n : Lane) : s.abortVisit n v = s.aborted n v x := by
  unfold State.abortVisit
  dsimp only
  rw [rejectVisit_eq here, startReleasing_eq]
  have frame : s.rejection v x .aborted = { s with
      link := (s.rejection v x .aborted).link
      book := (s.rejection v x .aborted).book
      ring := (s.rejection v x .aborted).ring
      visits := (s.rejection v x .aborted).visits
      yard := (s.rejection v x .aborted).yard } := rfl
  unfold State.aborted
  rw [frame]
  generalize (s.rejection v x .aborted).link = link
  generalize (s.rejection v x .aborted).book = book
  generalize (s.rejection v x .aborted).ring = ring
  generalize (s.rejection v x .aborted).visits = visits
  generalize (s.rejection v x .aborted).yard = yard
  simp [State.withdraw, State.emptySlot, State.modGrade, State.modLane, State.modSign, State.lane, State.sign,
    LaneUnit.lettingOut]

/-! ### LANE_RESET (R58, R82, R85, R144, R197) -/

/-- The rejection of a lane's resident visit, where it has one (R85, R88). -/
def State.rejectResident (s : State) (n : Lane) (why : RejectReason) (u : State) : State :=
  match s.residentVisit n with
  | some (v, x) => u.rejection v x why
  | none => u

theorem rejectResident_of_resident (h : s.Resident n v x) (why : RejectReason) (u : State) :
    s.rejectResident n why u = u.rejection v x why := by
  simp only [State.rejectResident, residentVisit_eq_some.2 h]

theorem residentVisit_of_empty (h : (s.lane n).resident = none) : s.residentVisit n = none := by
  simp only [State.residentVisit, h, Option.bind_none]

theorem rejectResident_of_empty (h : (s.lane n).resident = none) (why : RejectReason) (u : State) :
    s.rejectResident n why u = u := by
  simp only [State.rejectResident, residentVisit_of_empty h]

/-- The rejection of a resident visit touches the link, the book, the ring, the visits and the yard alone. -/
theorem rejectResident_frame (s : State) (n : Lane) (why : RejectReason) (u : State) : s.rejectResident n why u = { u with
    link := (s.rejectResident n why u).link
    book := (s.rejectResident n why u).book
    ring := (s.rejectResident n why u).ring
    visits := (s.rejectResident n why u).visits
    yard := (s.rejectResident n why u).yard } := by
  unfold State.rejectResident
  split <;> rfl

theorem Sign.clearForReset_eq (g : Sign) : g.clearForReset = g.afterReset := by
  have count : g.cls.lines = g.cls.count := by cases g.cls <;> rfl
  simp only [Sign.clearForReset, Sign.abandon, unknownMirror, Sign.afterReset, Sign.abandoned, count]

/-- A lane after its part of a reset, its rejected visit aside (R58, R85, R88). -/
def State.resetting (s : State) (n : Lane) (r : State) : State := { r with
  engine := { s.engine with waiting := s.engine.waiting.set n none }
  lanes := s.lanes.set n (s.lane n).afterReset
  grader := { s.grader with lanes := s.grader.lanes.set n { s.grader.lanes[n] with pending := none } }
  signs := s.signs.set n (s.sign n).afterReset }

theorem resetting_eq {r : State} (frame : r = { s with
    link := r.link, book := r.book, ring := r.ring, visits := r.visits, yard := r.yard }) (n : Lane) :
    (((r.withdraw n).emptySlot n).modLane n LaneUnit.cleared).modSign n Sign.clearForReset = s.resetting n r := by
  unfold State.resetting
  rw [frame]
  generalize r.link = link
  generalize r.book = book
  generalize r.ring = ring
  generalize r.visits = visits
  generalize r.yard = yard
  simp only [State.modSign, State.sign, Sign.clearForReset_eq]
  rfl

theorem resetLane_eq (seated : ∀ v, (s.lane n).resident = some v → (s.visit v).isSome = true) (why : RejectReason) :
    s.resetLane n why = s.resetting n (s.rejectResident n why s) := by
  rw [← resetting_eq (rejectResident_frame s n why s) n]
  unfold State.resetLane
  cases resident : (s.lane n).resident with
  | none => simp only [rejectResident_of_empty resident]
  | some v =>
    obtain ⟨x, here⟩ := Option.isSome_iff_exists.1 (seated v resident)
    simp only [rejectResident_of_resident ⟨resident, here⟩, rejectVisit_eq here]

/-- The state after a LANE_RESET, before any retry (R82, R85). -/
def State.resetWhole (s : State) (n : Lane) (r : State) : State := { r with
  link := { r.link with changes := if (s.lane n).closing then joinList (.lane n) r.link.changes else r.link.changes }
  engine := { s.engine with waiting := s.engine.waiting.set n none }
  lanes := s.lanes.set n { (s.lane n).afterReset with
    mode := if (s.lane n).closing then .closed else (s.lane n).mode, closing := false }
  openWait := s.openWait.filter (· != n)
  grader := { s.grader with lanes := s.grader.lanes.set n { s.grader.lanes[n] with pending := none } }
  signs := s.signs.set n (s.sign n).afterReset }

theorem resetLane_whole (seated : ∀ v, (s.lane n).resident = some v → (s.visit v).isSome = true) :
    ((s.resetLane n .laneReset).leaveWait n).closeIf n = s.resetWhole n (s.rejectResident n .laneReset s) := by
  have wait : (s.rejectResident n .laneReset s).openWait = s.openWait := by rw [rejectResident_frame]
  rw [resetLane_eq seated]
  generalize s.rejectResident n .laneReset s = r at wait ⊢
  have closing : (((s.resetting n r).leaveWait n).lane n).closing = (s.lane n).closing := by
    simp [State.resetting, State.leaveWait, State.lane, LaneUnit.afterReset]
  unfold State.closeIf
  rw [closing]
  cases is : (s.lane n).closing with
  | true =>
    simp [State.resetWhole, is, State.completeClosing, State.resetting, State.leaveWait, State.modLane, State.join, wait]
  | false =>
    have kept : ({ (s.lane n).afterReset with mode := (s.lane n).mode, closing := false } : LaneUnit)
        = (s.lane n).afterReset := by rw [← is]; rfl
    simp only [State.resetWhole, is, Bool.false_eq_true, if_false, kept]
    simp [State.resetting, State.leaveWait, wait]

end Sys2Proof.Machine

open Sys2Proof Sys2Proof.Machine in
/-- Settles O32. -/
theorem laneAbortRejectsTheVisit : Obligations.LaneAbortRejectsTheVisit := by
  intro s f rest n ready fields
  have decoded : decodeAll d1 f.fields = some (n.val + 1) := by rw [fields, decodeAll_d1_lane]
  refine ⟨fun empty => ?_, fun v x resident => ?_⟩
  · refine live_takeRequest_of_serve (code := 0x22#8) ready decoded ?_
    have noVisit : ((s.taken rest).lane n).resident = none := empty
    rw [onLane_number]
    simp only [serveLaneAbort, noVisit]
    rfl
  · intro u w
    have seen : (s.taken rest).Resident n v x := resident
    have aborts : (s.taken rest).abortVisit n v = u := abortVisit_eq seen.2 n
    have ends : w = u.retryIf (x.legs.any Leg.holdsPlace) := rfl
    have answer : onLane (n.val + 1) (s.taken rest) (fun n => serveLaneAbort n (s.taken rest))
        = accept w.startJobs [] := by
      rw [onLane_number]
      simp only [serveLaneAbort, seen.1, aborts, residentHolds_of_resident seen, ends]
    obtain ⟨runs, frame, starts⟩ := ends_with_jobs (code := 0x22#8)
      (serve := fun r t => onLane r t fun n => serveLaneAbort n t) ready decoded answer
    have here : u.visit v = some (x.rejected .aborted) := rejection_visit (s.taken rest) v x .aborted
    have handle : u.handle v = s.handle v := rejection_handle (s.taken rest) v v x .aborted
    have out : u.handle v ∉ u.yard.queue := by
      rw [handle]
      simp [u, rejection_queue, State.handle, State.taken]
    obtain ⟨visit, kept, queue⟩ := retryIf_of_rejected here out (x.legs.any Leg.holdsPlace)
    refine ⟨w.startJobs, runs, frame, starts, ?_, ?_, ?_⟩
    · rw [startJobs_visit, ends, visit]
    · rw [startJobs_handle, ends, kept, handle]
    · rw [startJobs_yard, ends, ← handle]
      exact queue

open Sys2Proof Sys2Proof.Machine in
/-- Settles O33. -/
theorem laneResetClearsTheLane : Obligations.LaneResetClearsTheLane := by
  intro s f rest n ready fields seated closes r u w
  have decoded : decodeAll d1 f.fields = some (n.val + 1) := by rw [fields, decodeAll_d1_lane]
  have isReset : u = (s.taken rest).resetWhole n ((s.taken rest).rejectResident n .laneReset (s.taken rest)) := rfl
  have resets : (((s.taken rest).resetLane n .laneReset).leaveWait n).closeIf n = u := resetLane_whole seated
  have holds : (s.taken rest).residentHolds n = (s.residentVisit n).any fun p => p.2.legs.any Leg.holdsPlace := by
    unfold State.residentHolds
    change (match s.residentVisit n with | some (_, x) => x.legs.any Leg.holdsPlace | none => false) = _
    cases s.residentVisit n <;> rfl
  have ends : w = u.retryIf ((s.residentVisit n).any fun p => p.2.legs.any Leg.holdsPlace) := rfl
  have answer : onLane (n.val + 1) (s.taken rest) (fun n => serveLaneReset n (s.taken rest)) = accept w.startJobs [] := by
    rw [onLane_number]
    simp only [serveLaneReset, resets, holds, ends]
  obtain ⟨runs, frame, starts⟩ := ends_with_jobs (code := 0x23#8)
    (serve := fun r t => onLane r t fun n => serveLaneReset n t) ready decoded answer
  have lane : u.lane n = { (s.lane n).afterReset with
      mode := if closes then .closed else (s.lane n).mode, closing := false } := lane_set_same rfl
  refine ⟨w.startJobs, runs, frame, starts, fun v x resident => ?_, ?_⟩
  · have rejected : (s.taken rest).rejectResident n .laneReset (s.taken rest) = (s.taken rest).rejection v x .laneReset :=
      rejectResident_of_resident (s := s.taken rest) resident _ _
    have here : u.visit v = some (x.rejected .laneReset) := by
      rw [isReset, rejected]
      exact rejection_visit (s.taken rest) v x .laneReset
    have handle : u.handle v = s.handle v := by
      rw [isReset, rejected]
      exact rejection_handle (s.taken rest) v v x .laneReset
    have out : u.handle v ∉ u.yard.queue := by
      rw [handle, isReset, rejected]
      simp [State.resetWhole, rejection_queue, State.handle, State.taken]
    obtain ⟨visit, kept, -⟩ := retryIf_of_rejected here out
      ((s.residentVisit n).any fun p => p.2.legs.any Leg.holdsPlace)
    exact ⟨by rw [startJobs_visit, ends, visit], by rw [startJobs_handle, ends, kept, handle]⟩
  · rw [startJobs_lane, ends]
    cases (s.residentVisit n).any fun p => p.2.legs.any Leg.holdsPlace with
    | false => rfl
    | true => exact (retry_retries u).lanes n (by rw [lane]; rfl) (by rw [lane]; rfl)
end

section
/-!
PROOFS. The Sign Units: lines and their truncation (R184), the content of a sign (R185 to R187), and the job that is due
(R188, R190 to R192).
-/

namespace Sys2Proof.Machine

variable {s t : State} {n : Lane}

/-! ### Lines (R184) -/

/-- The width of words that stand behind a word, each with its gap. -/
def restWidth (line : Line) : Nat := (line.map fun w => w.length + 1).sum

theorem lineWidth_cons (word : Text) (line : Line) : lineWidth (word :: line) = word.length + restWidth line := by
  induction line generalizing word with
  | nil => rfl
  | cons next line ih =>
    rw [lineWidth, ih]
    · simp only [restWidth, List.map_cons, List.sum_cons]
      omega
    · exact nofun

theorem restWidth_eq (line : Line) : restWidth line = (line.map List.length).sum + line.length := by
  induction line with
  | nil => rfl
  | cons word line ih =>
    have step : restWidth (word :: line) = word.length + 1 + restWidth line := rfl
    rw [step, ih]
    simp only [List.map_cons, List.sum_cons, List.length_cons]
    omega

theorem lineWidth_eq (line : Line) : lineWidth line = (line.map List.length).sum + (line.length - 1) := by
  cases line with
  | nil => rfl
  | cons word line =>
    rw [lineWidth_cons, restWidth_eq]
    simp only [List.map_cons, List.sum_cons, List.length_cons]
    omega

theorem truncRest_of_fits {left : Nat} {line : Line} (fits : restWidth line ≤ left) : truncRest left line = line := by
  induction line generalizing left with
  | nil => rfl
  | cons word line ih =>
    have step : restWidth (word :: line) = word.length + 1 + restWidth line := rfl
    rw [truncRest, if_pos (by omega), ih (by omega)]

theorem truncLine_of_fits {width : Nat} {line : Line} (fits : lineWidth line ≤ width) : truncLine width line = line := by
  cases line with
  | nil => rfl
  | cons word line =>
    rw [lineWidth_cons] at fits
    rw [truncLine, if_pos (by omega), truncRest_of_fits (by omega)]

/-- The first word that does not fit is cut to the columns left after its gap. -/
theorem truncRest_cut {left : Nat} {kept rest : Line} {word : Text} (fits : restWidth kept ≤ left)
    (cut : left < restWidth kept + (word.length + 1)) : truncRest left (kept ++ word :: rest)
      = kept ++ if 2 ≤ left - restWidth kept then [word.take (left - restWidth kept - 1)] else [] := by
  induction kept generalizing left with
  | nil =>
    rw [List.nil_append, truncRest, if_neg (by simp only [restWidth, List.map_nil, List.sum_nil] at cut; omega)]
    rfl
  | cons first kept ih =>
    have step : restWidth (first :: kept) = first.length + 1 + restWidth kept := rfl
    have less : left - (first.length + 1) - restWidth kept = left - restWidth (first :: kept) := by omega
    rw [List.cons_append, truncRest, if_pos (by omega), ih (by omega) (by omega), less]
    rfl

theorem truncLine_cut {width : Nat} {kept rest : Line} {word : Text} (positive : 0 < width)
    (fits : lineWidth kept ≤ width) (cut : width < lineWidth (kept ++ [word])) :
    let left := if kept = [] then width else width - (lineWidth kept + 1)
    truncLine width (kept ++ word :: rest) = kept ++ if left = 0 then [] else [word.take left] := by
  intro left
  cases kept with
  | nil =>
    have long : width < word.length := by simpa [lineWidth] using cut
    have is : left = width := rfl
    rw [is, if_neg (by omega), List.nil_append, truncLine, if_neg (by omega)]
    rfl
  | cons first kept =>
    have is : left = width - (lineWidth (first :: kept) + 1) := rfl
    have longer : restWidth (kept ++ [word]) = restWidth kept + (word.length + 1) := by simp [restWidth]
    rw [List.cons_append, lineWidth_cons, longer] at cut
    rw [lineWidth_cons] at fits is
    rw [List.cons_append, truncLine, if_pos (by omega), truncRest_cut (by omega) (by omega), List.cons_append]
    have room : width - first.length - restWidth kept - 1 = left := by omega
    rw [room]
    by_cases none : left = 0
    · rw [if_pos none, if_neg (by omega)]
    · rw [if_neg none, if_pos (by omega)]

/-! ### What a sign's content depends on (R185 to R187) -/

theorem SignClass.lines_eq (c : SignClass) : c.lines = c.count := by cases c <;> rfl

/-- The content that a sign with these settings would have. -/
def contentOf (s : State) (n : Lane) (g : Sign) : List Line :=
  match g.cls with
  | .ticket =>
    match s.residentIn n .directing with
    | some (_, x) => (ticket s n x).map (truncLine 32)
    | none => []
  | .line2 | .line4 => (padLines g.cls.lines (displayLines s n g)).map (truncLine g.cls.width)

theorem content_eq (s : State) (n : Lane) : content s n = contentOf s n (s.sign n) := rfl

/-- The content of a sign does not depend on the signs. -/
theorem contentOf_withSigns (s : State) (n : Lane) (g : Sign) (signs : Vector Sign 12) :
    contentOf { s with signs := signs } n g = contentOf s n g := rfl

section
variable (same : t = { s with signs := t.signs }) (sign : t.sign n = s.sign n)
include same sign

theorem content_of_signs : content t n = content s n := by
  rw [content_eq, content_eq, sign, same]
  exact contentOf_withSigns s n _ _

theorem jobDue_of_signs (refresh : Bool) : jobDue t n refresh = jobDue s n refresh := by
  simp only [jobDue, content_of_signs same sign, sign]

theorem signSubject_of_signs : signSubject t n = signSubject s n := by
  unfold signSubject
  rw [sign, same]
  rfl

theorem showsDirections_of_signs : showsDirections t n = showsDirections s n := by
  unfold showsDirections
  rw [sign, same]
  rfl

/-- A sign starts its due job whatever the other signs do. -/
theorem startJobOn_of_signs (refresh : Bool) : (startJobOn refresh n t).sign n = (startJobOn refresh n s).sign n := by
  have limits : t.lane n = s.lane n := lane_of_signs same n
  unfold startJobOn
  rw [jobDue_of_signs same sign, sign]
  split
  · split
    · simp only [State.beginJob, modSign_sign_same, sign, limits, signSubject_of_signs same sign,
        showsDirections_of_signs same sign]
    · exact sign
  · exact sign

end

theorem startJobOn_other {m : Lane} (refresh : Bool) (other : m ≠ n) (s : State) :
    (startJobOn refresh n s).sign m = s.sign m := by
  unfold startJobOn
  split
  · split
    · exact modSign_sign_other _ _ other
    · rfl
  · rfl

theorem foldl_startJobOn_sign {l : List Lane} (nodup : l.Nodup) (s : State) (n : Lane) :
    (l.foldl (fun t m => startJobOn false m t) s).sign n
      = if n ∈ l then (startJobOn false n s).sign n else s.sign n := by
  induction l generalizing s with
  | nil => rfl
  | cons m l ih =>
    obtain ⟨fresh, nodup⟩ := List.nodup_cons.1 nodup
    rw [List.foldl_cons, ih nodup]
    by_cases same : n = m
    · subst same
      simp [fresh]
    · have kept := startJobOn_other false same s
      simp only [List.mem_cons, same, false_or, kept, startJobOn_of_signs (startJobOn_eq false m s) kept]

/-- At the end of an event every sign starts the job that is due for it (R188, R191). -/
theorem startJobs_sign (s : State) (n : Lane) : s.startJobs.sign n = (startJobOn false n s).sign n := by
  unfold State.startJobs forLanes
  rw [foldl_startJobOn_sign (List.nodup_finRange 12), if_pos (List.mem_finRange n)]

/-! ### The job that is due (R190 to R192) -/

theorem startJobOn_of_busy {refresh : Bool} (busy : (s.sign n).job ≠ .idle) : startJobOn refresh n s = s := if_neg busy

theorem startJobOn_of_none {refresh : Bool} (none : jobDue s n refresh = .none) : startJobOn refresh n s = s := by
  simp [startJobOn, none]

/-- A sign with its job just started (R191, R192). -/
theorem startJobOn_of_due {refresh : Bool} (idle : (s.sign n).job = .idle) {first : Nat} {lines : List Line}
    (due : jobDue s n refresh = some (first, lines)) : (startJobOn refresh n s).sign n =
      (s.sign n).sending (s.lane n).limits.signReply first lines (signSubject s n) (showsDirections s n)
        ((s.sign n).cls == .ticket && lines.length == 1) := by
  have last : (first + 1 == first + lines.length) = (lines.length == 1) := by
    rw [Bool.eq_iff_iff, beq_iff_eq, beq_iff_eq]
    omega
  unfold startJobOn
  rw [if_pos idle]
  simp only [due, State.beginJob, modSign_sign_same, Sign.sendLine, Job.frame, Nat.sub_self, last]
  rfl

/-- Line `k` of the content differs from the mirror (R190), the lines counted from 0. -/
def Differs (lines : List Line) (mirror : List (Option Line)) (k : Nat) : Prop :=
  ∃ l, lines[k]? = some l ∧ mirror[k]? ≠ some (some l)

section
variable {lines : List Line} {mirror : List (Option Line)}

theorem mem_differing (length : mirror.length = lines.length) {m : Nat} :
    m ∈ differing lines mirror ↔ ∃ k, m = k + 1 ∧ Differs lines mirror k := by
  simp only [differing, List.mem_map, List.mem_filter, List.mem_zipIdx_iff_getElem?, List.getElem?_zip_eq_some, bne_iff_ne]
  constructor
  · rintro ⟨⟨⟨l, e⟩, k⟩, ⟨⟨at_, here⟩, differs⟩, rfl⟩
    refine ⟨k, rfl, l, at_, fun same => differs ?_⟩
    exact Option.some_inj.1 (here.symm.trans same)
  · rintro ⟨k, rfl, l, at_, differs⟩
    have inside : k < mirror.length := length ▸ (List.getElem?_eq_some_iff.1 at_).1
    refine ⟨⟨⟨l, mirror[k]⟩, k⟩, ⟨⟨at_, List.getElem?_eq_getElem inside⟩, fun same => differs ?_⟩, rfl⟩
    rw [List.getElem?_eq_getElem inside]
    exact congrArg some same

theorem differing_rising (lines : List Line) (mirror : List (Option Line)) :
    (differing lines mirror).Pairwise (· < ·) := by
  have indices : (((lines.zip mirror).zipIdx).map Prod.snd).Pairwise (· < ·) := by
    rw [List.zipIdx_map_snd]
    exact List.pairwise_lt_range'
  rw [List.pairwise_map] at indices
  rw [differing, List.pairwise_map]
  exact (indices.filter _).imp fun below => Nat.succ_lt_succ below

theorem differing_eq_nil_iff (length : mirror.length = lines.length) :
    differing lines mirror = [] ↔ ∀ k, ¬ Differs lines mirror k := by
  rw [List.eq_nil_iff_forall_not_mem]
  constructor
  · exact fun none k differs => none (k + 1) ((mem_differing length).2 ⟨k, rfl, differs⟩)
  · rintro none m mem
    obtain ⟨k, -, differs⟩ := (mem_differing length).1 mem
    exact none k differs

theorem head?_of_least {l : List Nat} (rising : l.Pairwise (· < ·)) {a : Nat} (mem : a ∈ l) (least : ∀ b ∈ l, a ≤ b) :
    l.head? = some a := by
  cases l with
  | nil => cases mem
  | cons b l =>
    rcases List.mem_cons.1 mem with rfl | mem
    · rfl
    · have above := (List.pairwise_cons.1 rising).1 a mem
      have := least b List.mem_cons_self
      omega

theorem getLast?_of_greatest {l : List Nat} (rising : l.Pairwise (· < ·)) {a : Nat} (mem : a ∈ l)
    (greatest : ∀ b ∈ l, b ≤ a) : l.getLast? = some a := by
  obtain ⟨before, after, rfl⟩ := List.append_of_mem mem
  have none : after = [] := by
    cases after with
    | nil => rfl
    | cons b after =>
      have above := (List.pairwise_cons.1 (List.pairwise_append.1 rising).2.1).1 b List.mem_cons_self
      have := greatest b (by simp)
      omega
  simp [none]

end

theorem length_contentOf (s : State) (n : Lane) {g : Sign} (display : g.cls ≠ .ticket) :
    (contentOf s n g).length = g.cls.count := by
  have length (lines : List Line) (k : Nat) : (padLines k lines).length = k := by
    simp only [padLines, List.length_take, List.length_append, List.length_replicate]
    omega
  unfold contentOf
  split
  · exact absurd ‹_› display
  all_goals rw [List.length_map, length, SignClass.lines_eq]

theorem length_content (display : (s.sign n).cls ≠ .ticket) : (content s n).length = (s.sign n).cls.count :=
  length_contentOf s n display

theorem Sign.effective_of_display {g : Sign} (display : g.cls ≠ .ticket) : g.effective = g.mode := if_neg display

section
variable (ticket : (s.sign n).cls = .ticket)
include ticket

theorem jobDue_ticket (refresh : Bool) :
    jobDue s n refresh = if (s.sign n).printDue then some (1, content s n) else none := by
  simp only [jobDue, ticket]

end

section
variable (display : (s.sign n).cls ≠ .ticket)
include display

theorem jobDue_off (off : (s.sign n).mode = .off) (refresh : Bool) : jobDue s n refresh = none := by
  simp only [jobDue, Sign.effective_of_display display, off]

/-- The job due on a display in ONCE runs from the first differing line to the last. -/
theorem jobDue_once (once : (s.sign n).mode = .once) {a b : Nat}
    (first : (differing (content s n) (s.sign n).mirror).head? = some a)
    (last : (differing (content s n) (s.sign n).mirror).getLast? = some b) (refresh : Bool) :
    jobDue s n refresh = some (a, ((content s n).take b).drop (a - 1)) := by
  cases cls : (s.sign n).cls with
  | ticket => exact absurd cls display
  | line2 | line4 => simp only [jobDue, Sign.effective_of_display display, once, cls, first, last]

theorem jobDue_once_of_shown (once : (s.sign n).mode = .once) (shown : differing (content s n) (s.sign n).mirror = [])
    (refresh : Bool) : jobDue s n refresh = none := by
  cases cls : (s.sign n).cls with
  | ticket => exact absurd cls display
  | line2 | line4 => simp only [jobDue, Sign.effective_of_display display, once, cls, shown, List.head?_nil]

theorem jobDue_repeating (repeating : (s.sign n).mode = .repeating) (refresh : Bool) :
    jobDue s n refresh
      = if refresh || !(differing (content s n) (s.sign n).mirror).isEmpty then some (1, content s n) else none := by
  simp only [jobDue, Sign.effective_of_display display, repeating]

section
variable (length : (s.sign n).mirror.length = (s.sign n).cls.count)
include length

theorem mirror_length_content : (s.sign n).mirror.length = (content s n).length := by
  rw [length, length_content display]

/-- No job is due on a display that shows its content. -/
theorem jobDue_of_shown (shown : ∀ k, ¬ Differs (content s n) (s.sign n).mirror k) : jobDue s n false = none := by
  have none := (differing_eq_nil_iff (mirror_length_content display length)).2 shown
  cases mode : (s.sign n).mode with
  | off => exact jobDue_off display mode false
  | once => exact jobDue_once_of_shown display mode none false
  | repeating => rw [jobDue_repeating display mode, none]; rfl

theorem jobDue_range (once : (s.sign n).mode = .once) {a b : Nat} (first : Differs (content s n) (s.sign n).mirror a)
    (last : Differs (content s n) (s.sign n).mirror b)
    (between : ∀ k, Differs (content s n) (s.sign n).mirror k → a ≤ k ∧ k ≤ b) (refresh : Bool) :
    jobDue s n refresh = some (a + 1, ((content s n).take (b + 1)).drop a) := by
  have rising := differing_rising (content s n) (s.sign n).mirror
  have lengths := mirror_length_content display length
  have head := head?_of_least rising ((mem_differing lengths).2 ⟨a, rfl, first⟩) fun m mem => by
    obtain ⟨k, rfl, differs⟩ := (mem_differing lengths).1 mem
    exact Nat.succ_le_succ (between k differs).1
  have tail := getLast?_of_greatest rising ((mem_differing lengths).2 ⟨b, rfl, last⟩) fun m mem => by
    obtain ⟨k, rfl, differs⟩ := (mem_differing lengths).1 mem
    exact Nat.succ_le_succ (between k differs).2
  rw [jobDue_once display once head tail, Nat.add_sub_cancel]

theorem jobDue_whole (repeating : (s.sign n).mode = .repeating) {k : Nat}
    (differs : Differs (content s n) (s.sign n).mirror k) (refresh : Bool) :
    jobDue s n refresh = some (1, content s n) := by
  have some_ : (differing (content s n) (s.sign n).mirror).isEmpty = false := by
    rw [List.isEmpty_eq_false_iff]
    exact List.ne_nil_of_mem ((mem_differing (mirror_length_content display length)).2 ⟨k, rfl, differs⟩)
  rw [jobDue_repeating display repeating, some_]
  simp

end

end

/-! ### The subject of a job (R188, R191) -/

theorem signSubject_of_resident {v : Fin 64} (h : (s.lane n).resident = some v) : signSubject s n = some (s.handle v) := by
  simp only [signSubject, h]

theorem signSubject_of_empty (h : (s.lane n).resident = none) : signSubject s n = (s.sign n).abortSubject := by
  simp only [signSubject, h]

theorem showsDirections_iff : showsDirections s n = true ↔ ∃ v x, s.Resident n v x ∧ (x.state = .directing
    ∨ (s.sign n).cls ≠ .ticket ∧ x.state = .releasing ∧ x.outcome = some .admission) := by
  unfold showsDirections
  constructor
  · intro shows
    split at shows
    · next v x resident =>
      exact ⟨v, x, residentVisit_eq_some.1 resident, by simpa [and_assoc] using shows⟩
    · cases shows
  · rintro ⟨v, x, resident, shows⟩
    simpa [residentVisit_eq_some.2 resident, and_assoc] using shows

/-! ### The content by the lane's state (R185 to R187) -/

section
variable {v : Fin 64} {x : Visit}

theorem content_display (display : (s.sign n).cls ≠ .ticket) :
    content s n = ((displayLines s n (s.sign n) ++ List.replicate (s.sign n).cls.count []).take
      (s.sign n).cls.count).map (truncLine (s.sign n).cls.width) := by
  rw [content_eq, contentOf]
  cases cls : (s.sign n).cls with
  | ticket => exact absurd cls display
  | line2 => rfl
  | line4 => rfl

theorem displayLines_of_resident (h : s.Resident n v x) : displayLines s n (s.sign n) = visitLines s n (s.sign n) x := by
  simp only [displayLines, laneState_of_resident h.1, residentVisit_eq_some.2 h]

theorem content_ticket (ticket : (s.sign n).cls = .ticket) (h : s.Resident n v x) (state : x.state = .directing) :
    content s n = (Machine.ticket s n x).map (truncLine 32) := by
  rw [content_eq, contentOf, ticket]
  simp only [residentIn_eq_some.2 ⟨h, state⟩]

theorem content_ticket_of_other (ticket : (s.sign n).cls = .ticket) (h : ∀ v x, s.Resident n v x → x.state ≠ .directing) :
    content s n = [] := by
  have none : s.residentIn n .directing = none := by
    rw [Option.eq_none_iff_forall_not_mem]
    rintro ⟨v, x⟩ mem
    obtain ⟨resident, state⟩ := residentIn_eq_some.1 mem
    exact h v x resident state
  rw [content_eq, contentOf, ticket]
  simp only [none]

theorem exists_two_of_length {α : Type} {l : List α} (many : 2 ≤ l.length) : ∃ a b more, l = a :: b :: more := by
  rcases l with _ | ⟨a, _ | ⟨b, more⟩⟩
  · simp at many
  · simp at many
  · exact ⟨a, b, more, rfl⟩

/-- Two leg lines fill a display of 2 lines (R186). -/
theorem directions_of_pair {cls : SignClass} (two : cls = .line2) {a b : Line} {more : List Line}
    (legs : (directedLegs x).map (Leg.line s cls.width) = a :: b :: more) : directions s n cls x = [a, b] := by
  subst two
  simp only [directions, legs]

theorem directions_of_whole {cls : SignClass} {legs : List Line} (given : (directedLegs x).map (Leg.line s cls.width) = legs)
    (room : cls ≠ .line2 ∨ legs.length < 2) : directions s n cls x = plateLine n x :: legs := by
  unfold directions
  rw [given]
  dsimp only
  split
  · rcases room with other | few
    · exact absurd rfl other
    · simp only [List.length_cons] at few
      omega
  · rfl

/-- A line's first words, and its route where it has room for it (R186). -/
theorem Leg.line_eq (s : State) (width : Nat) (l : Leg) :
    let words : Line := match l.dest with
      | some (.block b) => [Text.of "BLOCK", s.yard.blocks[b].code.getD []]
      | some (.bay b) => [Text.of "BAY", s.yard.bays[b].code]
      | none => []
    let route : Text := match l.dest with
      | some (.block b) => s.yard.blocks[b].route.getD []
      | some (.bay b) => s.yard.bays[b].route
      | none => []
    l.line s width = if route ≠ [] ∧ lineWidth (words ++ [route]) ≤ width then words ++ [route] else words := by
  cases dest : l.dest with
  | none => simp [Leg.line, dest]
  | some d => cases d <;> simp only [Leg.line, dest, legLine, destWords] <;> rfl

end

end Sys2Proof.Machine

open Sys2Proof Sys2Proof.Machine in
/-- Settles O50. -/
theorem signContentAndJobsFollowTheTables : Obligations.SignContentAndJobsFollowTheTables := by
  refine ⟨fun w line => ⟨lineWidth_eq line, truncLine_of_fits, ?cut⟩, fun s n => ?tables⟩
  case cut =>
    rintro kept rest word rfl positive fits cut
    exact truncLine_cut positive fits cut
  case tables =>
    intro g width shows number lane away words route legLine directed legs plate
    have is (lines : List Line) (display : g.cls ≠ .ticket) (shown : displayLines s n (s.sign n) = lines) : shows lines := by
      have width' : (s.sign n).cls.width = width := by simp only [width, g]; cases (s.sign n).cls <;> rfl
      simp only [shows, g, ← shown, ← width']
      exact content_display display
    have line : Leg.line s width = legLine := funext fun l => Leg.line_eq s width l
    have legsOf (x : Visit) : directedLegs x = legs x := by
      simp only [directedLegs, legs, directed, List.filter_filter, Leg.directed]
      congr 2 <;> funext l <;> cases l.kind.any Kind.isDrop <;> simp
    have plateOf (x : Visit) : plateLine n x = plate x := by
      unfold plateLine
      rfl
    refine ⟨fun display => ?display, fun ticket => ?print, ?jobs⟩
    case display =>
      refine ⟨fun idle mode => is _ display ?_, fun idle mode => is _ display ?_, fun blocked => is _ display ?_,
        fun closed => is _ display ?_, fun releasing => is _ display ?_, fun v x resident => ?_⟩
      · simp only [displayLines, idle, mode, if_true]
        rfl
      · simp only [displayLines, idle, mode, reduceCtorEq, if_false]
        rfl
      · simp only [displayLines, blocked]
        rfl
      · simp only [displayLines, closed]
        rfl
      · simp only [displayLines, releasing]
        rfl
      · have shown {lines : List Line} (same : visitLines s n (s.sign n) x = lines) : shows lines :=
          is lines display ((displayLines_of_resident resident).trans same)
        refine ⟨fun state => shown ?_, fun state => shown ?_, fun state => shown ?_, fun state => ?_, fun state out => shown ?_⟩
        · simp only [visitLines, state]
        · simp only [visitLines, state]
        · rcases state with state | state <;> simp only [visitLines, state]
        · have same : visitLines s n (s.sign n) x = directions s n g.cls x := by
            rcases state with state | ⟨state, out⟩
            · simp only [visitLines, state, g]
            · simp only [visitLines, state, out, if_true, g]
          have width' : g.cls.width = width := by simp only [width]; cases g.cls <;> rfl
          have legs' : (directedLegs x).map (Leg.line s g.cls.width) = (legs x).map legLine := by
            rw [width', line, legsOf]
          refine ⟨fun two many => ?_, fun other => shown ?_⟩
          · obtain ⟨a, b, more, split⟩ := exists_two_of_length (l := (legs x).map legLine) (by rwa [List.length_map])
            have first : shows [a, b] := shown (same.trans (directions_of_pair two (legs'.trans split)))
            have cut (tail : List Line) : ((a :: b :: tail) ++ List.replicate g.cls.count []).take g.cls.count = [a, b] := by
              rw [two]
              rfl
            simp only [shows, split]
            rw [cut]
            simp only [shows] at first
            rwa [cut] at first
          · rw [same, directions_of_whole legs', plateOf]
            rcases other with four | few
            · exact .inl (by simp [four])
            · exact .inr (by rwa [List.length_map])
        · simp only [visitLines, state, if_neg out]
          rfl
    case print =>
      refine ⟨fun v x resident state => ?_, content_ticket_of_other ticket⟩
      have width' : width = 32 := by simp only [width, ticket]
      rw [content_ticket ticket resident state, Machine.ticket, plateOf, legsOf, ← line, width']
    case jobs =>
      intro lines effective differs starts
      have starting (idle : g.job = .idle) {first : Nat} {job : List Line} (due : jobDue s n false = some (first, job)) :
          starts first job := by
        refine ⟨signSubject s n, showsDirections s n, ?_, fun v => signSubject_of_resident, signSubject_of_empty,
          showsDirections_iff⟩
        rw [startJobs_sign]
        exact startJobOn_of_due idle due
      have stays (refused : jobDue s n false = none) : s.startJobs.sign n = g := by
        rw [startJobs_sign, startJobOn_of_none refused]
      refine ⟨startJobs_eq s, fun busy => ?_, fun idle display length => ⟨fun quiet => ?_, fun once a b below first last
        between => starting idle (jobDue_range display length once first last between false), fun repeating ⟨k, differs⟩ =>
        starting idle (jobDue_whole display length repeating differs false)⟩, fun idle ticket => ⟨fun due => ?_, fun due => ?_⟩⟩
      · rw [startJobs_sign, startJobOn_of_busy busy]
      · refine stays ?_
        rcases quiet with off | shown
        · exact jobDue_off display off false
        · exact jobDue_of_shown display length shown
      · exact starting idle ((jobDue_ticket ticket false).trans (if_pos due))
      · exact stays ((jobDue_ticket ticket false).trans (if_neg fun is => Bool.false_ne_true (due.symm.trans is)))
end

section
/-!
PROOFS. GATE_RESTART (R88, R218).
-/

namespace Sys2Proof.Machine

variable {s t e r : State} {f : ReqFrame} {rest : List ReqFrame} {n m : Lane} {v : Fin 64} {x : Visit}

/-! ### The rejections of a restart (R83, R88) -/

/-- The rejections of the residents of some lanes, one after the other. -/
def State.rejections (e : State) (l : List Lane) : State :=
  l.foldl (fun u n => e.rejectResident n .restart u) e

theorem rejections_snoc (e : State) (l : List Lane) (n : Lane) :
    e.rejections (l ++ [n]) = e.rejectResident n .restart (e.rejections l) := by
  rw [State.rejections, List.foldl_append]
  rfl

/-- No visit is resident on two lanes, and each resident visit is open. -/
structure State.Apart (s : State) : Prop where
  seated : ∀ (n : Lane) (v : Fin 64), (s.lane n).resident = some v → (s.visit v).isSome = true
  distinct : ∀ (n m : Lane) (v : Fin 64), (s.lane n).resident = some v → (s.lane m).resident = some v → n = m

theorem Apart.cases (apart : e.Apart) (n : Lane) :
    (e.lane n).resident = none ∨ ∃ v x, e.Resident n v x := by
  cases resident : (e.lane n).resident with
  | none => exact .inl rfl
  | some v =>
    obtain ⟨x, here⟩ := Option.isSome_iff_exists.1 (apart.seated n v resident)
    exact .inr ⟨v, x, resident, here⟩

section
variable (apart : e.Apart) {l : List Lane}
include apart

theorem rejections_visits_other (none : ∀ n ∈ l, (e.lane n).resident ≠ some v) :
    (e.rejections l).visits[v] = e.visits[v] := by
  induction l using List.reverseRecOn with
  | nil => rfl
  | append_singleton l n ih =>
    have before := ih fun m mem => none m (List.mem_append_left _ mem)
    rw [rejections_snoc]
    rcases Apart.cases apart n with empty | ⟨w, x, resident⟩
    · rw [rejectResident_of_empty empty, before]
    · have other : w ≠ v := fun same => none n (by simp) (same ▸ resident.1)
      rw [rejectResident_of_resident resident]
      refine Eq.trans ?_ before
      simp [State.rejection, Fin.val_inj, other]

/-- A lane that is not rejected yet still has its resident visit as it was. -/
theorem rejections_resident (fresh : n ∉ l) (resident : e.Resident n v x) :
    (e.rejections l).visits[v] = e.visits[v] :=
  rejections_visits_other apart fun m mem is => fresh (apart.distinct n m v resident.1 is ▸ mem)

theorem rejections_visits_same (nodup : l.Nodup) (mem : n ∈ l) (resident : e.Resident n v x) :
    (e.rejections l).visits[v] = { e.visits[v] with visit := some (x.rejected .restart) } := by
  induction l using List.reverseRecOn with
  | nil => cases mem
  | append_singleton l m ih =>
    obtain ⟨nodup, -, fresh⟩ := List.nodup_append.1 nodup
    rw [rejections_snoc]
    by_cases last : n = m
    · subst last
      rw [rejectResident_of_resident resident]
      have before := rejections_resident apart (l := l) (fun mem => fresh n mem n (by simp) rfl) resident
      have set : ((e.rejections l).rejection v x .restart).visits[v]
          = { (e.rejections l).visits[v] with visit := some (x.rejected .restart) } := by simp [State.rejection]
      rw [set, before]
    · have inside : n ∈ l := by simpa [last] using mem
      have before := ih nodup inside
      rcases Apart.cases apart m with empty | ⟨w, y, other⟩
      · rw [rejectResident_of_empty empty, before]
      · have apart' : w ≠ v := fun same => last (apart.distinct n m v resident.1 (same ▸ other.1))
        rw [rejectResident_of_resident other]
        refine Eq.trans ?_ before
        simp [State.rejection, Fin.val_inj, apart']

theorem rejections_link (nodup : l.Nodup) (cleared : e.link.changes = []) : (e.rejections l).link =
    { e.link with changes := l.filterMap fun n => (e.lane n).resident.map Change.visit } := by
  induction l using List.reverseRecOn with
  | nil => rw [State.rejections, List.foldl_nil, List.filterMap_nil, ← cleared]
  | append_singleton l n ih =>
    obtain ⟨nodup, -, fresh⟩ := List.nodup_append.1 nodup
    rw [rejections_snoc]
    rcases Apart.cases apart n with empty | ⟨v, x, resident⟩
    · rw [rejectResident_of_empty empty, ih nodup]
      simp [empty]
    · have new : Change.visit v ∉ l.filterMap fun n => (e.lane n).resident.map Change.visit := by
        intro mem
        obtain ⟨m, inside, is⟩ := List.mem_filterMap.1 mem
        obtain ⟨w, resident', same⟩ := Option.map_eq_some_iff.1 is
        cases same
        exact fresh m inside n (by simp) (apart.distinct m n v resident' resident.1)
      rw [rejectResident_of_resident resident]
      change { (e.rejections l).link with changes := joinList (.visit v) (e.rejections l).link.changes } = _
      rw [ih nodup, joinList, if_neg new]
      simp [resident.1]

end

/-- A window but for its arrived counts. -/
def Window.unarrived (w : Window) : Window := { w with arrived := ⟨0, 0, 0, 0⟩ }

/-- The ring keeps everything but the arrived counts. -/
def Ring.SamePlan (old new : Ring) : Prop :=
  ∃ windows : List Window, new = { old with windows := windows }
    ∧ windows.map Window.unarrived = old.windows.map Window.unarrived

theorem Ring.SamePlan.refl (ring : Ring) : ring.SamePlan ring := ⟨ring.windows, rfl, rfl⟩

theorem Ring.SamePlan.trans {a b c : Ring} (h : a.SamePlan b) (g : b.SamePlan c) : a.SamePlan c := by
  obtain ⟨xs, rfl, first⟩ := h
  obtain ⟨ys, rfl, second⟩ := g
  exact ⟨ys, rfl, second.trans first⟩

theorem countArrived_samePlan (ring : Ring) (window : Option Nat) (k : Kind) (g : Nat → Nat) :
    ring.SamePlan (ring.countArrived window k g) := by
  refine ⟨_, rfl, ?_⟩
  rw [List.map_map]
  refine List.map_congr_left fun w _ => ?_
  simp only [Function.comp_apply]
  split <;> rfl

theorem revertBooking_samePlan (s : State) (l : Leg) (h : Handle) : s.ring.SamePlan (s.revertBooking l h).ring := by
  unfold State.revertBooking
  split
  · exact .refl _
  · split
    · split
      · dsimp only
        split
        · rw [Ring.subArrived_eq]
          exact countArrived_samePlan _ _ _ _
        · exact .refl _
      · exact .refl _
    · exact .refl _

theorem reverted_samePlan (s : State) (h : Handle) (legs : List Leg) : s.ring.SamePlan (s.reverted h legs).ring := by
  induction legs generalizing s with
  | nil => exact .refl _
  | cons l legs ih => exact (revertBooking_samePlan s l h).trans (ih _)

/-- The yard keeps everything but the reserved counts, the bay places and the queue. -/
def Yard.SameSettings (old new : Yard) : Prop :=
  new.groups = old.groups
    ∧ (∀ b : Fin 48, new.blocks[b] = { old.blocks[b] with reserved := new.blocks[b].reserved })
    ∧ ∀ b : Fin 4, new.bays[b] = { old.bays[b] with places := new.bays[b].places }

theorem Yard.SameSettings.refl (y : Yard) : y.SameSettings y := ⟨rfl, fun _ => rfl, fun _ => rfl⟩

theorem Yard.SameSettings.trans {a b c : Yard} (h : a.SameSettings b) (g : b.SameSettings c) : a.SameSettings c := by
  obtain ⟨groups, blocks, bays⟩ := h
  obtain ⟨groups', blocks', bays'⟩ := g
  refine ⟨groups'.trans groups, fun i => ?_, fun i => ?_⟩
  · rw [blocks' i, blocks i]
  · rw [bays' i, bays i]

theorem givenBack_sameSettings (y : Yard) (h : Handle) (legs : List Leg) (queue : List Handle) :
    y.SameSettings { y.givenBack h legs with queue := queue } := by
  refine ⟨?_, fun b => ?_, fun b => ?_⟩
  · simp only [Yard.givenBack]
  · simp [Yard.givenBack]
  · simp [Yard.givenBack]

theorem rejections_keep (e : State) (l : List Lane) :
    e.ring.SamePlan (e.rejections l).ring ∧ e.yard.SameSettings (e.rejections l).yard := by
  induction l using List.reverseRecOn with
  | nil => exact ⟨.refl _, .refl _⟩
  | append_singleton l n ih =>
    rw [rejections_snoc]
    unfold State.rejectResident
    split
    · exact ⟨ih.1.trans (reverted_samePlan _ _ _), ih.2.trans (givenBack_sameSettings _ _ _ _)⟩
    · exact ih

/-! ### The lanes of a restart (R88) -/

/-- The state with some lanes restarted, and the rejections of their visits made in `r`. -/
def State.restarted (e r : State) (l : List Lane) : State := { r with
  engine := { e.engine with waiting := Vector.ofFn fun n => if n ∈ l then none else e.engine.waiting[n] }
  lanes := Vector.ofFn fun n =>
    if n ∈ l then { (e.lane n).afterReset with mode := .manual, closing := false } else e.lane n
  grader := { e.grader with lanes := Vector.ofFn fun n =>
    if n ∈ l then { e.grader.lanes[n] with pending := none } else e.grader.lanes[n] }
  signs := Vector.ofFn fun n => if n ∈ l then (e.sign n).afterReset else e.sign n }

theorem ofFn_self {α : Type} {k : Nat} (xs : Vector α k) : (Vector.ofFn fun i : Fin k => xs[i]) = xs := by
  ext i hi
  simp

theorem restarted_nil (e : State) : e.restarted e [] = e := by
  have lanes : (Vector.ofFn fun n : Lane => e.lane n) = e.lanes := ofFn_self e.lanes
  have signs : (Vector.ofFn fun n : Lane => e.sign n) = e.signs := ofFn_self e.signs
  simp only [State.restarted, List.not_mem_nil, if_false, ofFn_self, lanes, signs]

/-- A rejection reads and changes no engine, no lane, no grader and no sign. -/
theorem rejection_withRest (same : t = { r with engine := t.engine, lanes := t.lanes, grader := t.grader, signs := t.signs })
    (v : Fin 64) (x : Visit) (why : RejectReason) : t.rejection v x why = { r.rejection v x why with
      engine := t.engine, lanes := t.lanes, grader := t.grader, signs := t.signs } := by
  have handle : t.handle v = r.handle v := by rw [same]; rfl
  have acts := reverted_actsOnBook (r.handle v) (x.legs.filter fun l => !l.done)
  have book := acts.book_eq (s := r) (t := t) (by rw [same]) (by rw [same])
  have ring := acts.ring_eq (s := r) (t := t) (by rw [same]) (by rw [same])
  simp only [State.rejection, handle, book, ring]
  rw [same]

/-- A vector given by a function, with one entry set. -/
theorem ofFn_set {α : Type} {l : List Lane} {new old : Lane → α} (fresh : m ∉ l) {a : α} (is : a = new m) :
    (Vector.ofFn fun n => if n ∈ l then new n else old n).set m a
      = Vector.ofFn fun n => if n ∈ l ++ [m] then new n else old n := by
  ext i hi
  by_cases same : (⟨i, hi⟩ : Lane) = m
  · subst same
    simp [is]
  · have other : m.val ≠ i := fun eq => same (Fin.ext eq.symm)
    simp [other, same]

theorem restarted_lane (fresh : m ∉ l) : (e.restarted r l).lane m = e.lane m := by
  simp [State.restarted, State.lane, fresh]

theorem restarted_resident (apart : e.Apart) (fresh : m ∉ l) (resident : e.Resident m v x) :
    (e.restarted (e.rejections l) l).Resident m v x := by
  refine ⟨by rw [restarted_lane fresh, resident.1], ?_⟩
  have kept := rejections_resident apart fresh resident
  exact (congrArg VisitSlot.visit kept).trans resident.2

/-- The part of a restart that is its lane's own (R88). -/
theorem resetting_restarted (fresh : m ∉ l) (q r : State) :
    ((e.restarted q l).resetting m (e.restarted r l)).setMode m .manual = e.restarted r (l ++ [m]) := by
  have lane : (e.restarted q l).lane m = e.lane m := restarted_lane fresh
  have sign : (e.restarted q l).sign m = e.sign m := by simp [State.restarted, State.sign, fresh]
  have pending : (e.restarted q l).grader.lanes[m] = e.grader.lanes[m] := by simp [State.restarted, fresh]
  simp only [State.resetting, State.setMode, State.modLane, State.lane, Vector.set_set, Fin.getElem_fin,
    Vector.getElem_set_self]
  simp only [State.lane, Fin.getElem_fin] at lane pending
  simp only [lane, sign, pending]
  simp only [State.restarted]
  have pendings := ofFn_set (old := fun n => e.grader.lanes[n]) (new := fun n => { e.grader.lanes[n] with pending := none })
    fresh rfl
  simp only [State.lane, Fin.getElem_fin] at pendings ⊢
  rw [ofFn_set fresh rfl, ofFn_set fresh rfl, pendings, ofFn_set fresh rfl]

/-- One more lane restarted (R88). -/
theorem restartLane_restarted (apart : e.Apart) (fresh : m ∉ l) :
    restartLane m (e.restarted (e.rejections l) l) = e.restarted (e.rejections (l ++ [m])) (l ++ [m]) := by
  have seated (v : Fin 64) (resident : ((e.restarted (e.rejections l) l).lane m).resident = some v) :
      ((e.restarted (e.rejections l) l).visit v).isSome = true := by
    rw [restarted_lane fresh] at resident
    obtain ⟨x, here⟩ := Option.isSome_iff_exists.1 (apart.seated m v resident)
    rw [(restarted_resident apart fresh ⟨resident, here⟩).2]
    rfl
  have rejected : (e.restarted (e.rejections l) l).rejectResident m .restart (e.restarted (e.rejections l) l)
      = e.restarted (e.rejections (l ++ [m])) l := by
    rw [rejections_snoc]
    rcases Apart.cases apart m with empty | ⟨v, x, resident⟩
    · rw [rejectResident_of_empty (by rw [restarted_lane fresh, empty]), rejectResident_of_empty empty]
    · rw [rejectResident_of_resident (restarted_resident apart fresh resident), rejectResident_of_resident resident]
      exact rejection_withRest rfl v x .restart
  rw [restartLane, resetLane_eq seated, rejected, resetting_restarted fresh]

theorem restart_lanes (apart : e.Apart) (nodup : l.Nodup) :
    l.foldl (fun t n => restartLane n t) e = e.restarted (e.rejections l) l := by
  induction l using List.reverseRecOn with
  | nil => exact (restarted_nil e).symm
  | append_singleton l m ih =>
    obtain ⟨nodup, -, fresh⟩ := List.nodup_append.1 nodup
    rw [List.foldl_append, List.foldl_cons, List.foldl_nil, ih nodup,
      restartLane_restarted apart fun mem => fresh m mem m (by simp) rfl]

/-- The state with every lane restarted, before the signs start their jobs (R88, R218). -/
def State.allRestarted (e r : State) : State := { r with
  engine := { e.engine with waiting := Vector.replicate 12 none }
  lanes := Vector.ofFn fun n => { (e.lane n).afterReset with mode := .manual, closing := false }
  openWait := []
  grader := { e.grader with lanes := Vector.ofFn fun n => { e.grader.lanes[n] with pending := none } }
  yard := { r.yard with queue := [] }
  signs := Vector.ofFn fun n => (e.sign n).afterReset }

theorem restarted_all (e r : State) : ({ e.restarted r (List.finRange 12) with
    openWait := [], yard := { (e.restarted r (List.finRange 12)).yard with queue := [] } } : State) = e.allRestarted r := by
  have waiting : (Vector.ofFn fun _ : Lane => (none : Option Ident)) = Vector.replicate 12 none := by
    ext i hi
    simp
  simp only [State.restarted, List.mem_finRange, if_true, waiting]
  rfl

theorem restart_eq (emptied : e = s.modLink fun l => { l with changes := [] }) (apart : e.Apart) :
    s.restart = (e.allRestarted (e.rejections (List.finRange 12))).startJobs := by
  rw [State.restart, ← emptied, forLanes, restart_lanes apart (List.nodup_finRange 12)]
  exact congrArg State.startJobs (restarted_all e _)

theorem allRestarted_lane (e r : State) (n : Lane) :
    (e.allRestarted r).lane n = { (e.lane n).afterReset with mode := .manual, closing := false } := by
  simp [State.allRestarted, State.lane]

theorem allRestarted_sign (e r : State) (n : Lane) : (e.allRestarted r).sign n = (e.sign n).afterReset := by
  simp [State.allRestarted, State.sign]

/-! ### The signs of a restart (R185, R197) -/

theorem staffed_truncated (n : Lane) (c : SignClass) (display : c ≠ .ticket) :
    ((laneLine n (Text.of "STAFFED") :: List.replicate c.count []).take c.count).map (truncLine c.width)
      = laneLine n (Text.of "STAFFED") :: List.replicate (c.count - 1) [] := by
  have number : (laneWord n).length ≤ 2 := by unfold laneWord digits2; split <;> simp
  have width : lineWidth (laneLine n (Text.of "STAFFED")) ≤ 16 := by
    rw [lineWidth_eq]
    simp only [laneLine, List.map_cons, List.map_nil, List.sum_cons, List.sum_nil, List.length_cons, List.length_nil]
    have lane : (Text.of "LANE").length = 4 := rfl
    have staffed : (Text.of "STAFFED").length = 7 := rfl
    omega
  have blank (width : Nat) : truncLine width [] = [] := rfl
  cases c with
  | ticket => exact absurd rfl display
  | line2 =>
    have whole : truncLine SignClass.line2.width (laneLine n (Text.of "STAFFED")) = _ := truncLine_of_fits width
    simp [SignClass.count, whole, blank, List.replicate]
  | line4 =>
    have whole : truncLine SignClass.line4.width (laneLine n (Text.of "STAFFED")) = _ :=
      truncLine_of_fits (Nat.le_trans width (by decide))
    simp [SignClass.count, whole, blank, List.replicate]

/-- A display with an UNKNOWN mirror is due a job of every line (R190, R191). -/
theorem jobDue_of_unknown (display : (s.sign n).cls ≠ .ticket) (shown : (s.sign n).mode ≠ .off)
    (mirror : (s.sign n).mirror = List.replicate (s.sign n).cls.count none) :
    jobDue s n false = some (1, content s n) := by
  have length : (s.sign n).mirror.length = (s.sign n).cls.count := by rw [mirror, List.length_replicate]
  have positive : 2 ≤ (s.sign n).cls.count := by cases (s.sign n).cls <;> decide
  have contents : (content s n).length = (s.sign n).cls.count := length_content display
  have differs (k : Nat) (inside : k < (s.sign n).cls.count) : Differs (content s n) (s.sign n).mirror k := by
    refine ⟨(content s n)[k], List.getElem?_eq_getElem (by omega), ?_⟩
    rw [mirror, List.getElem?_replicate, if_pos inside]
    exact nofun
  cases is : (s.sign n).mode with
  | off => exact absurd is shown
  | repeating => exact jobDue_whole display length is (differs 0 (by omega)) false
  | once =>
    rw [jobDue_range display length is (differs 0 (by omega)) (differs ((s.sign n).cls.count - 1) (by omega))
      (fun k ⟨l, at_, _⟩ => ⟨Nat.zero_le k, by have := (List.getElem?_eq_some_iff.1 at_).1; omega⟩)]
    rw [List.take_of_length_le (by omega), List.drop_zero]

/-- A sign whose lane has just been restarted (R185, R197). -/
theorem startJobOn_of_restarted {g : Sign} (sign : s.sign n = g.afterReset) (empty : s.LaneEmpty n)
    (mode : (s.lane n).mode = .manual) : (startJobOn false n s).sign n =
      if g.afterReset.cls = .ticket ∨ g.afterReset.mode = .off then g.afterReset
      else g.afterReset.sending (s.lane n).limits.signReply 1
        (laneLine n (Text.of "STAFFED") :: List.replicate (g.afterReset.cls.count - 1) []) none false false := by
  have idle : (s.sign n).job = .idle := by rw [sign]; rfl
  by_cases quiet : g.afterReset.cls = .ticket ∨ g.afterReset.mode = .off
  · rw [if_pos quiet, ← sign]
    rw [← sign] at quiet
    by_cases ticket : (s.sign n).cls = .ticket
    · rw [startJobOn_of_none (by rw [jobDue_ticket ticket, sign]; rfl)]
    · rw [startJobOn_of_none (jobDue_off ticket (quiet.resolve_left ticket) _)]
  · obtain ⟨display, shown⟩ := not_or.1 quiet
    rw [if_neg quiet]
    rw [← sign] at display shown ⊢
    have staffed : content s n
        = laneLine n (Text.of "STAFFED") :: List.replicate ((s.sign n).cls.count - 1) [] := by
      rw [content_display display, displayLines, laneState_of_manual empty mode, mode]
      exact staffed_truncated n _ display
    have mirror : (s.sign n).mirror = List.replicate (s.sign n).cls.count none := by rw [sign]; rfl
    have due := jobDue_of_unknown display shown mirror
    have subject : signSubject s n = none := by rw [signSubject_of_empty empty.1, sign]; rfl
    have plain : showsDirections s n = false := by
      rw [Bool.eq_false_iff]
      intro shows
      obtain ⟨v, x, ⟨resident, -⟩, -⟩ := showsDirections_iff.1 shows
      rw [empty.1] at resident
      cases resident
    have final : ((s.sign n).cls == SignClass.ticket && (content s n).length == 1) = false := by simp [display]
    rw [startJobOn_of_due idle due, subject, plain, final, staffed]

end Sys2Proof.Machine

open Sys2Proof Sys2Proof.Machine in
/-- Settles O10, by induction on the lanes restarted. -/
theorem gateRestartRejectsEveryResidentVisit : Obligations.GateRestartRejectsEveryResidentVisit := by
  intro s f rest ready fields seated distinct e r
  have apart : e.Apart := ⟨seated, distinct⟩
  have isRejections : r = e.rejections (List.finRange 12) := rfl
  clear_value r
  subst isRejections
  have nodup : (List.finRange 12).Nodup := List.nodup_finRange 12
  have restarts : (s.taken rest).restart = (e.allRestarted (e.rejections (List.finRange 12))).startJobs :=
    restart_eq rfl apart
  generalize t_is : (e.allRestarted (e.rejections (List.finRange 12))).startJobs = t at restarts
  have frame : t = { e.allRestarted (e.rejections (List.finRange 12)) with signs := t.signs } := by
    rw [← t_is]
    exact startJobs_eq _
  have link := rejections_link apart nodup rfl
  obtain ⟨ring, yard⟩ := rejections_keep e (List.finRange 12)
  have gone (v : Fin 64) (none : ∀ n : Lane, (e.lane n).resident ≠ some v) :
      (e.rejections (List.finRange 12)).visits[v] = e.visits[v] := rejections_visits_other apart fun n _ => none n
  have rejected (n : Lane) (v : Fin 64) (x : Visit) (resident : e.Resident n v x) :
      (e.rejections (List.finRange 12)).visits[v] = { e.visits[v] with visit := some (x.rejected .restart) } :=
    rejections_visits_same apart nodup (List.mem_finRange n) resident
  have sign (n : Lane) : t.sign n = (startJobOn false n (e.allRestarted (e.rejections (List.finRange 12)))).sign n := by
    rw [← t_is, startJobs_sign]
  clear t_is
  generalize e.rejections (List.finRange 12) = r at *
  refine ⟨t, ?_, frame, ?_, fun v none => ?_, fun n v x resident => ⟨?_, ?_⟩, ?_, ?_, fun n => ?_⟩
  · exact live_takeRequest_of_serve (code := 0x05#8) ready (decodeAll_dNone fields) (by rw [restarts]; rfl)
  · rw [frame]
    exact link
  · rw [frame]
    exact gone v none
  · rw [frame]
    have kept := congrArg (fun slot : VisitSlot => (⟨v, slot.gen⟩ : Handle)) (rejected n v x resident)
    exact kept
  · rw [frame]
    exact congrArg VisitSlot.visit (rejected n v x resident)
  · rw [frame]
    exact ring
  · rw [frame]
    exact yard
  · have lane := allRestarted_lane e r n
    have restarted := startJobOn_of_restarted (allRestarted_sign e r n) ⟨by rw [lane]; rfl, by rw [lane]; rfl⟩ (by rw [lane])
    rw [lane] at restarted
    exact (sign n).trans restarted
end

section
/-!
PROOFS. The sign jobs: replies, failures and refresh events (R189, R192 to R194), and the report of directions (R78,
R79, R187, R195).
-/

namespace Sys2Proof.Machine

variable {s t u w : State} {n : Lane} {v : Fin 64} {x y : Visit} {j : Job} {h : Handle}

/-! ### Replies (R189) -/

section
variable {seq line : Nat} {verdict : Byte}

theorem serialFrame_of_reply (body : List Byte) (fits : body.length ≤ 255) :
    serialFrame ((serialBytes ⟨0x21#8, body⟩).map fun b => ⟨b, false⟩) = .ok ⟨0x21#8, body⟩ :=
  serialFrame_serialBytes fits

theorem signReplyOf_of_verdict (small : seq < 256) (small' : line < 256) (known : verdict = 0x00#8 ∨ verdict = 0x01#8) :
    signReplyOf ((serialBytes ⟨0x21#8, [BitVec.ofNat 8 seq, BitVec.ofNat 8 line, verdict]⟩).map fun b => ⟨b, false⟩)
      = some ⟨seq, line, verdict == 0x00#8⟩ := by
  unfold signReplyOf
  rw [serialFrame_of_reply _ (by simp)]
  simp only [known, and_self, if_true, BitVec.toNat_ofNat, Nat.mod_eq_of_lt small, Nat.mod_eq_of_lt small']

theorem signReplyOf_of_unknown (unknown : ¬ (verdict = 0x00#8 ∨ verdict = 0x01#8)) :
    signReplyOf ((serialBytes ⟨0x21#8, [BitVec.ofNat 8 seq, BitVec.ofNat 8 line, verdict]⟩).map fun b => ⟨b, false⟩)
      = none := by
  unfold signReplyOf
  rw [serialFrame_of_reply _ (by simp)]
  simp only [unknown, and_false, if_false]

end

theorem takeReply_of_other {r : Reply} (sending : (s.sign n).job = .sending j)
    (other : r.seq ≠ j.seq ∨ r.line ≠ j.awaited) : s.takeReply n r = s := by
  unfold State.takeReply
  rw [sending]
  exact if_neg fun same => other.elim (· same.1) (· same.2)

theorem takeReply_of_awaited (sending : (s.sign n).job = .sending j) (accept : Bool) :
    s.takeReply n ⟨j.seq, j.awaited, accept⟩ = if accept then s.acceptLine n j else s.failJob n j := by
  unfold State.takeReply
  rw [sending]
  exact if_pos ⟨rfl, rfl⟩

/-! ### A job's end (R192) -/

/-- A display shows its content: it is idle and no line differs (R195, case 4). -/
theorem contentShown_iff (length : (s.sign n).mirror.length = (s.sign n).cls.count) :
    contentShown s n = true ↔ (s.sign n).cls ≠ .ticket ∧ (s.sign n).job = .idle
      ∧ ∀ (i : Nat) (l : Line), (content s n)[i]? = some l → (s.sign n).mirror[i]? = some (some l) := by
  unfold contentShown
  rw [Bool.and_eq_true, Bool.and_eq_true, bne_iff_ne, beq_iff_eq, List.isEmpty_iff, and_assoc]
  refine and_congr_right fun display => and_congr_right fun _ => ?_
  rw [differing_eq_nil_iff (mirror_length_content display length)]
  exact ⟨fun shown i l at_ => not_not.1 fun differs => shown i ⟨l, at_, differs⟩,
    fun shown i ⟨l, at_, differs⟩ => differs (shown i l at_)⟩

/-- A sign whose awaited line is accepted (R192). -/
def Sign.accepted (g : Sign) (j : Job) : Sign := { g with
  reply := 0
  replyDue := false
  mirror := g.mirror.set (j.awaited - 1) (some (j.lines.getD (j.awaited - j.first) [])) }

/-- The state with the job of a lane's sign completed, before its report and the next job (R192). -/
def State.jobDone (s : State) (n : Lane) (j : Job) : State :=
  { s with signs := s.signs.set n { (s.sign n).accepted j with job := .idle } }

theorem acceptLine_of_more (more : j.awaited + 1 < j.first + j.lines.length) : s.acceptLine n j = { s with
    signs := s.signs.set n { (s.sign n).accepted j with
      job := .sending { j with awaited := j.awaited + 1, seq := (s.sign n).seq }
      seq := ((s.sign n).seq + 1) % 256
      reply := (s.lane n).limits.signReply
      sent := (s.sign n).sent ++ [.line (s.sign n).seq (j.awaited + 1)
        (decide ((s.sign n).cls = .ticket ∧ j.awaited + 2 = j.first + j.lines.length))
        (j.lines.getD (j.awaited + 1 - j.first) [])] } } := by
  have last : ((s.sign n).cls == SignClass.ticket && j.awaited + 1 + 1 == j.first + j.lines.length)
      = decide ((s.sign n).cls = .ticket ∧ j.awaited + 2 = j.first + j.lines.length) := by
    rw [Bool.decide_and]
    rfl
  unfold State.acceptLine
  rw [if_pos more, ← last]
  simp [State.modSign, State.sign, Sign.sendLine, Job.frame, Sign.accepted, State.lane]

/-- The report that a completed job gives, where it gives one (R195, cases 1 and 4). -/
theorem acceptLine_of_last (last : ¬ j.awaited + 1 < j.first + j.lines.length) (resident : s.Resident n v x)
    (state : x.state = .directing) : s.acceptLine n j = startJobOn false n
      (if (j.subject = some (s.handle v) ∧ j.directions = true) ∨ contentShown (s.jobDone n j) n then
        (s.jobDone n j).report n else s.jobDone n j) := by
  have done : (s.modSign n fun g => g.accepted j).modSign n (fun g => { g with job := .idle }) = s.jobDone n j := by
    simp [State.modSign, State.sign, State.jobDone]
  have there : (s.jobDone n j).residentIn n .directing = some (v, x) := residentIn_eq_some.2 ⟨resident, state⟩
  unfold State.acceptLine
  rw [if_neg last]
  change (s.modSign n fun g => g.accepted j).completeJob n j = _
  unfold State.completeJob
  dsimp only
  rw [done, there]
  refine congrArg (startJobOn false n) (if_congr ?_ rfl rfl)
  rw [Bool.or_eq_true, Bool.and_eq_true, beq_iff_eq, and_comm]
  rfl

theorem acceptLine_of_elsewhere (last : ¬ j.awaited + 1 < j.first + j.lines.length)
    (elsewhere : ∀ v x, s.Resident n v x → x.state ≠ .directing) : s.acceptLine n j = startJobOn false n (s.jobDone n j) := by
  have done : (s.modSign n fun g => g.accepted j).modSign n (fun g => { g with job := .idle }) = s.jobDone n j := by
    simp [State.modSign, State.sign, State.jobDone]
  unfold State.acceptLine
  rw [if_neg last]
  change (s.modSign n fun g => g.accepted j).completeJob n j = _
  unfold State.completeJob
  dsimp only
  rw [done, report_of_other (s := s.jobDone n j) elsewhere, ite_self]

/-! ### A job's failure (R193) -/

/-- A sign whose job has failed (R193). -/
def Sign.failed (g : Sign) : Sign := { g with
  job := .hold, reply := 0, replyDue := false, mirror := List.replicate g.cls.count none
  faults := min 65535 (g.faults + 1) }

/-- The state with the job of a lane's sign failed, before the mark of a visit (R193). -/
def State.jobFailed (s : State) (n : Lane) : State := { s with signs := s.signs.set n (s.sign n).failed }

/-- The state with a visit's sign fault marked (R193). -/
def State.faulted (s : State) (v : Fin 64) (x : Visit) : State := { s with
  link := { s.link with changes := joinList (.visit v) s.link.changes }
  visits := s.visits.set v { s.visits[v] with visit := some { x with signFault := true } } }

theorem named_eq_some : s.named h = some x ↔ s.handle h.slot = h ∧ s.visit h.slot = some x := by
  obtain ⟨slot, gen⟩ := h
  simp [State.named, State.handle]

theorem named_handle (here : s.visit v = some x) : s.named (s.handle v) = some x := named_eq_some.2 ⟨rfl, here⟩

theorem markSignFault_of_named (named : s.named h = some x) : s.markSignFault (some h) = s.faulted h.slot x := by
  simp only [State.markSignFault, named, Option.isSome_some, if_true, modVisit_eq (named_eq_some.1 named).2]
  rfl

theorem markSignFault_of_unnamed {subject : Option Handle} (unnamed : ∀ h, subject = some h → s.named h = none) :
    s.markSignFault subject = s := by
  cases subject with
  | none => rfl
  | some h => simp [State.markSignFault, unnamed h rfl]

/-- The state with the job of a lane's sign failed and a visit marked, before any report (R193). -/
def State.jobLost (s : State) (n : Lane) (j : Job) : State := (s.jobFailed n).markSignFault j.subject

theorem jobFailed_eq (s : State) (n : Lane) : (s.modSign n fun g => { g with
    job := .hold, reply := 0, replyDue := false, mirror := unknownMirror g.cls, faults := satSucc g.faults })
      = s.jobFailed n := by
  simp only [State.modSign, State.jobFailed, Sign.failed, unknownMirror, SignClass.lines_eq, satSucc_eq, State.sign]

/-- The report of directions that a failed job gives, where it gives one (R195, case 2). -/
def State.reportLoss (s : State) (n : Lane) (j : Job) : State :=
  match s.residentIn n .directing with
  | some (v, _) => if j.subject = some (s.handle v) then s.report n else s
  | none => s

theorem failJob_eq (s : State) (n : Lane) (j : Job) : s.failJob n j = (s.jobLost n j).reportLoss n j := by
  unfold State.failJob
  dsimp only
  rw [jobFailed_eq]
  rfl

theorem reportLoss_of_own (resident : s.Resident n v x) (state : x.state = .directing)
    (own : j.subject = some (s.handle v)) : s.reportLoss n j = s.report n := by
  simp only [State.reportLoss, residentIn_eq_some.2 ⟨resident, state⟩, own, if_true]

theorem reportLoss_of_other (resident : s.Resident n v x) (state : x.state = .directing)
    (other : j.subject ≠ some (s.handle v)) : s.reportLoss n j = s := by
  simp only [State.reportLoss, residentIn_eq_some.2 ⟨resident, state⟩, if_neg other]

theorem reportLoss_of_elsewhere (elsewhere : ∀ v x, s.Resident n v x → x.state ≠ .directing) : s.reportLoss n j = s := by
  have nobody : s.residentIn n .directing = none := by
    rw [Option.eq_none_iff_forall_not_mem]
    rintro ⟨v, x⟩ mem
    obtain ⟨resident, state⟩ := residentIn_eq_some.1 mem
    exact elsewhere v x resident state
  simp only [State.reportLoss, nobody]

/-! ### The events of a sign (R189, R193, R194) -/

theorem exec_signReply {chars : List RxChar} {r : Reply} (power : s.prst = false) (given : signReplyOf chars = some r) :
    exec (.signReply n chars) s = .next (s.takeReply n r).startJobs := by
  have run : exec (.signReply n chars) s = live s (match signReplyOf chars with
    | some r => (s.takeReply n r).startJobs
    | none => s) := rfl
  rw [run, given, live_on power]

theorem exec_signReply_of_unknown {chars : List RxChar} (power : s.prst = false) (given : signReplyOf chars = none) :
    exec (.signReply n chars) s = .next s := by
  have run : exec (.signReply n chars) s = live s (match signReplyOf chars with
    | some r => (s.takeReply n r).startJobs
    | none => s) := rfl
  rw [run, given, live_on power]

theorem exec_replyTimerExpiry (power : s.prst = false) (due : (s.sign n).replyDue = true)
    (sending : (s.sign n).job = .sending j) : exec (.replyTimerExpiry n) s = .next (s.failJob n j).startJobs := by
  have run : exec (.replyTimerExpiry n) s = live s (if (s.sign n).replyDue then
      match (s.sign n).job with
      | .sending j => (s.failJob n j).startJobs
      | .idle | .hold => s
    else s) := rfl
  rw [run, if_pos due, sending, live_on power]

theorem exec_replyTimerExpiry_of_quiet (due : (s.sign n).replyDue = false) : exec (.replyTimerExpiry n) s = .next s := by
  have run : exec (.replyTimerExpiry n) s = live s (if (s.sign n).replyDue then
      match (s.sign n).job with
      | .sending j => (s.failJob n j).startJobs
      | .idle | .hold => s
    else s) := rfl
  rw [run, due]
  exact congrArg _ (ite_self s)

/-- A state with one expiry of a lane's refresh timer taken (R69). -/
def State.refreshTaken (s : State) (n : Lane) : State :=
  { s with lanes := s.lanes.set n { s.lane n with refreshDue := (s.lane n).refreshDue - 1 } }

theorem exec_refreshEvent (power : s.prst = false) (due : 0 < (s.lane n).refreshDue) :
    exec (.refreshEvent n) s = .next ((s.refreshTaken n).refreshSign n) := by
  have run : exec (.refreshEvent n) s = live s (if 0 < (s.lane n).refreshDue then
      (s.modLane n fun l => { l with refreshDue := l.refreshDue - 1 }).refreshSign n
    else s) := rfl
  rw [run, if_pos due, live_on power]
  rfl

theorem exec_refreshEvent_of_quiet (due : (s.lane n).refreshDue = 0) : exec (.refreshEvent n) s = .next s := by
  have run : exec (.refreshEvent n) s = live s (if 0 < (s.lane n).refreshDue then
      (s.modLane n fun l => { l with refreshDue := l.refreshDue - 1 }).refreshSign n
    else s) := rfl
  rw [run, due]
  exact congrArg _ (ite_self s)

theorem refreshSign_of_sending (sending : (s.sign n).job = .sending j) : s.refreshSign n = s := by
  simp only [State.refreshSign, sending]

theorem refreshSign_of_hold (hold : (s.sign n).job = .hold) :
    s.refreshSign n = startJobOn false n { s with signs := s.signs.set n { s.sign n with job := .idle } } := by
  simp only [State.refreshSign, hold]
  rfl

theorem refreshSign_of_quiet (idle : (s.sign n).job = .idle)
    (quiet : (s.sign n).cls = .ticket ∨ (s.sign n).mode = .off) : s.refreshSign n = s := by
  unfold State.refreshSign
  rw [idle]
  cases cls : (s.sign n).cls with
  | ticket => rfl
  | line2 | line4 =>
    have off := quiet.resolve_left (by rw [cls]; exact nofun)
    simp only [Sign.effective_of_display (g := s.sign n) (by rw [cls]; exact nofun), off]

theorem refreshSign_of_once (idle : (s.sign n).job = .idle) (display : (s.sign n).cls ≠ .ticket)
    (mode : (s.sign n).mode = .once) : s.refreshSign n =
      { s with signs := s.signs.set n { s.sign n with sent := (s.sign n).sent ++ [.keepalive] } } := by
  unfold State.refreshSign
  rw [idle, Sign.effective_of_display display, mode]
  cases cls : (s.sign n).cls with
  | ticket => exact absurd cls display
  | line2 => rfl
  | line4 => rfl

theorem refreshSign_of_repeating (idle : (s.sign n).job = .idle) (display : (s.sign n).cls ≠ .ticket)
    (mode : (s.sign n).mode = .repeating) : s.refreshSign n = startJobOn true n s := by
  unfold State.refreshSign
  rw [idle, Sign.effective_of_display display, mode]
  cases cls : (s.sign n).cls with
  | ticket => exact absurd cls display
  | line2 => rfl
  | line4 => rfl

/-- What a lane's content depends on (R185 to R187). -/
theorem content_congr (state : t.laneState n = s.laneState n) (mode : (t.lane n).mode = (s.lane n).mode)
    (visit : t.residentVisit n = s.residentVisit n) (words : ∀ d, destWords t d = destWords s d)
    (cls : (t.sign n).cls = (s.sign n).cls) (desk : (t.sign n).desk = (s.sign n).desk) : content t n = content s n := by
  have legLine : legLine t = legLine s := by
    funext width d
    simp only [Machine.legLine, words]
  have line : Leg.line t = Leg.line s := by
    funext width l
    simp only [Leg.line, legLine]
  have directions (x : Visit) (c : SignClass) : directions t n c x = directions s n c x := by
    simp only [Machine.directions, line]
  have ticket (x : Visit) : ticket t n x = ticket s n x := by simp only [Machine.ticket, line]
  have visitLines (x : Visit) : visitLines t n (t.sign n) x = visitLines s n (s.sign n) x := by
    simp only [Machine.visitLines, directions, cls, desk]
  have lines : displayLines t n (t.sign n) = displayLines s n (s.sign n) := by
    simp only [displayLines, state, mode, visit, visitLines, desk]
  have directing : t.residentIn n .directing = s.residentIn n .directing := by
    simp only [State.residentIn, visit]
  simp only [content, cls, directing, ticket, lines]

/-- A sign starts its due job and then every sign does. -/
theorem startsThenAll (w : State) (n : Lane) : (startJobOn false n w).startJobs = { w with signs := (startJobOn false n w).startJobs.signs }
    ∧ SignsMayStart w (startJobOn false n w).startJobs :=
  ⟨(startJobs_eq _).trans (congrArg (fun u : State => { u with signs := (startJobOn false n w).startJobs.signs })
      (startJobOn_eq false n w)),
    (startJobOn_mayStart false n w).trans (startJobs_mayStart _)⟩

theorem jobLost_of_named (subject : j.subject = some h) (named : s.named h = some x) :
    s.jobLost n j = (s.jobFailed n).faulted h.slot x := by
  rw [State.jobLost, subject]
  exact markSignFault_of_named named

theorem jobLost_of_unnamed (unnamed : ∀ h, j.subject = some h → s.named h = none) : s.jobLost n j = s.jobFailed n :=
  markSignFault_of_unnamed unnamed

/-- What a failed job leaves: its visit marked, where it names one, and nothing else of a visit changed (R193). -/
theorem jobLost_spec (s : State) (n : Lane) (j : Job) :
    (∀ v y, (s.jobLost n j).Resident n v y → ∃ x, y.state = x.state ∧ s.Resident n v x)
    ∧ s.jobLost n j = { s with
        link := { s.link with changes := (s.jobLost n j).link.changes }
        visits := (s.jobLost n j).visits
        signs := (s.jobLost n j).signs }
    ∧ (s.jobLost n j).signs = s.signs.set n (s.sign n).failed
    ∧ (∀ h x, j.subject = some h → s.named h = some x →
        (s.jobLost n j).link.changes = joinList (.visit h.slot) s.link.changes
        ∧ (s.jobLost n j).visits = s.visits.set h.slot { s.visits[h.slot] with visit := some { x with signFault := true } })
    ∧ ((∀ h, j.subject = some h → s.named h = none) →
        (s.jobLost n j).link.changes = s.link.changes ∧ (s.jobLost n j).visits = s.visits) := by
  by_cases names : ∃ h x, j.subject = some h ∧ s.named h = some x
  · obtain ⟨h, x, subject, named⟩ := names
    have lost : s.jobLost n j = (s.jobFailed n).faulted h.slot x := jobLost_of_named subject named
    rw [lost]
    refine ⟨fun v y ⟨resident, there⟩ => ?_, rfl, rfl, fun h' x' subject' named' => ?_, fun unnamed => ?_⟩
    · by_cases same : v = h.slot
      · subst same
        have visit : ((s.jobFailed n).faulted h.slot x).visit h.slot = some { x with signFault := true } :=
          visit_set_same (y := { s.visits[h.slot] with visit := some { x with signFault := true } }) rfl
        cases visit.symm.trans there
        exact ⟨x, rfl, resident, (named_eq_some.1 named).2⟩
      · exact ⟨y, rfl, resident, (visit_set_other (s := s) rfl same).symm.trans there⟩
    · cases subject.symm.trans subject'
      cases named.symm.trans named'
      exact ⟨rfl, rfl⟩
    · rw [unnamed h subject] at named
      cases named
  · have unnamed : ∀ h, j.subject = some h → s.named h = none := fun h subject => by
      rw [Option.eq_none_iff_forall_not_mem]
      exact fun x named => names ⟨h, x, subject, named⟩
    have lost : s.jobLost n j = s.jobFailed n := jobLost_of_unnamed unnamed
    rw [lost]
    exact ⟨fun v y there => ⟨y, rfl, there⟩, rfl, rfl, fun h x subject named => absurd ⟨h, x, subject, named⟩ names,
      fun _ => ⟨rfl, rfl⟩⟩

/-- The signs after the end of an event at a lane whose own sign is busy. -/
theorem startJobs_sign_of_busy (busy : (w.sign n).job ≠ .idle) : w.startJobs.sign n = w.sign n := by
  rw [startJobs_sign, startJobOn_of_busy busy]

theorem startJobs_sign_of_set {g : Sign} (set : w.signs = s.signs.set n g) {m : Lane} (other : m ≠ n) :
    (s.sign m).MayStart (w.startJobs.sign m) := by
  rw [← sign_set_other set other]
  exact startJobs_mayStart w m

section
variable (same : t = { w with signs := t.signs })
include same

theorem link_of_signs : t.link = w.link := by
  rw [same]

theorem visits_of_signs : t.visits = w.visits := by
  rw [same]

end

/-- A job fails at a lane with no visit in DIRECTING (R193). -/
theorem exec_of_failed {a : Instr} (run : exec a s = .next (s.failJob n j).startJobs)
    (elsewhere : ∀ v x, s.Resident n v x → x.state ≠ .directing) : ∃ t : State, exec a s = .next t
      ∧ t.sign n = (s.sign n).failed ∧ (∀ m : Lane, m ≠ n → (s.sign m).MayStart (t.sign m))
      ∧ (∀ h x, j.subject = some h → s.named h = some x → t.link.changes = joinList (.visit h.slot) s.link.changes
         ∧ t.visits = s.visits.set h.slot { s.visits[h.slot] with visit := some { x with signFault := true } })
      ∧ ((∀ h, j.subject = some h → s.named h = none) → t.link.changes = s.link.changes ∧ t.visits = s.visits)
      ∧ t = { s with link := { s.link with changes := t.link.changes }, visits := t.visits, signs := t.signs } := by
  obtain ⟨sits, frame, signs, named, unnamed⟩ := jobLost_spec s n j
  have silent : (s.jobLost n j).reportLoss n j = s.jobLost n j := reportLoss_of_elsewhere fun v y resident => by
    obtain ⟨x, state, there⟩ := sits v y resident
    exact state ▸ elsewhere v x there
  rw [failJob_eq, silent] at run
  generalize s.jobLost n j = w at run frame signs named unnamed
  have sign : w.sign n = (s.sign n).failed := sign_set_same signs
  have busy : w.startJobs.sign n = w.sign n := startJobs_sign_of_busy (by rw [sign]; exact nofun)
  have starts (m : Lane) (other : m ≠ n) : (s.sign m).MayStart (w.startJobs.sign m) := startJobs_sign_of_set signs other
  have after := startJobs_eq w
  generalize w.startJobs = t at run busy starts after
  have link := link_of_signs after
  have visits := visits_of_signs after
  refine ⟨t, run, busy.trans sign, starts, ?_, ?_, ?_⟩
  · rw [link, visits]
    exact named
  · rw [link, visits]
    exact unnamed
  · rw [link, visits]
    exact after.trans (congrArg (fun u : State => { u with signs := t.signs }) frame)

theorem refreshTaken_lane (s : State) (n m : Lane) :
    ∃ k, (s.refreshTaken n).lane m = { s.lane m with refreshDue := k } := by
  by_cases same : m = n
  · subst same
    exact ⟨_, lane_set_same rfl⟩
  · exact ⟨(s.lane m).refreshDue, lane_set_other rfl same⟩

/-- A refresh event changes no content. -/
theorem content_of_refreshTaken (same : t = { s.refreshTaken n with signs := t.signs })
    (cls : (t.sign n).cls = (s.sign n).cls) (desk : (t.sign n).desk = (s.sign n).desk) : content t n = content s n := by
  obtain ⟨k, lane⟩ := refreshTaken_lane s n n
  have lane' : t.lane n = { s.lane n with refreshDue := k } := (lane_of_signs same n).trans lane
  have free : t.freeCount = s.freeCount := by rw [same]; rfl
  have visit (v : Fin 64) : t.visit v = s.visit v := visit_of_signs same v
  refine content_congr ?_ (by rw [lane']) ?_ (fun d => ?_) cls desk
  · simp only [State.laneState, lane', free]
  · simp only [State.residentVisit, lane', visit]
  · have yard : t.yard = s.yard := by rw [same]; rfl
    cases d <;> simp only [destWords, yard]

/-- A sign that a refresh event has released from HOLD, before the job due starts (R194). -/
def State.released (s : State) (n : Lane) : State :=
  { s.refreshTaken n with signs := s.signs.set n { s.sign n with job := .idle } }

theorem released_sign (s : State) (n : Lane) : (s.released n).sign n = { s.sign n with job := .idle } := sign_set_same rfl

theorem released_content (s : State) (n : Lane) : content (s.released n) n = content s n :=
  content_of_refreshTaken rfl (by rw [released_sign]) (by rw [released_sign])

theorem exec_refreshEvent_of_hold (power : s.prst = false) (due : 0 < (s.lane n).refreshDue)
    (hold : (s.sign n).job = .hold) : exec (.refreshEvent n) s = .next (startJobOn false n (s.released n)) := by
  rw [exec_refreshEvent power due, refreshSign_of_hold (s := s.refreshTaken n) hold]
  rfl

/-- A started job's fields. -/
theorem sending_job (g : Sign) (limit first : Nat) (lines : List Line) (subject : Option Handle) (directions final : Bool) :
    (g.sending limit first lines subject directions final).job = .sending ⟨lines, first, first, g.seq, subject, directions⟩ :=
  rfl

section
variable {g : Sign} (sign : w.sign n = { g with job := .idle })
include sign

theorem startJobOn_of_nothing (quiet : g.cls = .ticket ∧ g.printDue = false ∨ g.cls ≠ .ticket ∧ g.mode = .off) :
    startJobOn false n w = w := by
  refine startJobOn_of_none ?_
  rcases quiet with ⟨ticket, due⟩ | ⟨display, off⟩
  · rw [jobDue_ticket (by rw [sign]; exact ticket), sign]
    exact if_neg (due ▸ Bool.false_ne_true)
  · exact jobDue_off (by rw [sign]; exact display) (by rw [sign]; exact off) false

theorem startJobOn_of_unknown (display : g.cls ≠ .ticket) (shown : g.mode ≠ .off)
    (mirror : g.mirror = List.replicate g.cls.count none) : ∃ job, ((startJobOn false n w).sign n).job = .sending job
      ∧ job.first = 1 ∧ job.awaited = 1 ∧ job.lines = content w n := by
  rw [startJobOn_of_due (by rw [sign]) (jobDue_of_unknown (by rw [sign]; exact display) (by rw [sign]; exact shown)
    (by rw [sign]; exact mirror)), sending_job]
  exact ⟨_, rfl, rfl, rfl, rfl⟩

theorem startJobOn_of_printDue (ticket : g.cls = .ticket) (due : g.printDue = true) :
    ∃ job, ((startJobOn false n w).sign n).job = .sending job ∧ job.first = 1 ∧ job.awaited = 1
      ∧ job.lines = content w n ∧ ((startJobOn false n w).sign n).printDue = false := by
  have class_ : (w.sign n).cls = .ticket := by rw [sign]; exact ticket
  have starts : jobDue w n false = some (1, content w n) := by
    rw [jobDue_ticket class_, sign]
    exact if_pos due
  rw [startJobOn_of_due (by rw [sign]) starts, sending_job]
  exact ⟨_, rfl, rfl, rfl, rfl, if_pos class_⟩

end

/-- An idle REPEAT display sends its whole content at a refresh event (R194). -/
theorem startJobOn_of_repeating (idle : (w.sign n).job = .idle) (display : (w.sign n).cls ≠ .ticket)
    (repeating : (w.sign n).mode = .repeating) : ∃ job, ((startJobOn true n w).sign n).job = .sending job
      ∧ job.first = 1 ∧ job.awaited = 1 ∧ job.lines = content w n := by
  rw [startJobOn_of_due idle (jobDue_repeating display repeating true), sending_job]
  exact ⟨_, rfl, rfl, rfl, rfl⟩

/-! ### The report of directions (R78, R195) -/

/-- The state after the report of a visit's directions, with its lane's sign as given (R195). -/
def State.reported (s : State) (n : Lane) (v : Fin 64) (g : Sign) (y : Visit) : State := { s with
  lanes := s.lanes.set n ((s.lane n).lettingOut s.loops[n].exit)
  visits := s.visits.set v { s.visits[v] with visit := some y.releasing }
  signs := s.signs.set n { g with reportMark := true, printDue := false } }

theorem visits_set_self (here : s.visit v = some x) : s.visits.set v { s.visits[v] with visit := some x } = s.visits := by
  have slot : ({ s.visits[v] with visit := some x } : VisitSlot) = s.visits[v] := by rw [← here]; rfl
  rw [slot]
  exact Vector.set_getElem_self v.isLt

/-- A visit enters DIRECTING (R78). -/
theorem enterDirecting_of_reported (here : s.visit v = some x) (resident : (s.lane n).resident = some v)
    (reports : ((s.directed n v x).sign n).effective = .off ∨ contentShown (s.directed n v x) n) :
    s.enterDirecting n v = s.reported n v (s.sign n) { x with state := .directing, holdStart := none } := by
  have lane : (s.directed n v x).lane n = { s.lane n with dwell := .stopped } := lane_set_same rfl
  have sign : (s.directed n v x).sign n = { s.sign n with reportMark := false, printDue := (s.sign n).cls == .ticket } :=
    sign_set_same rfl
  have there : (s.directed n v x).Resident n v { x with state := .directing, holdStart := none } :=
    ⟨by rw [lane]; exact resident, visit_set_same (y := { s.visits[v] with
      visit := some { x with state := .directing, holdStart := none } }) rfl⟩
  rw [enterDirecting_eq here, if_pos reports, report_of_directing there rfl (by rw [sign]), lane, sign]
  simp [State.directed, State.reported, LaneUnit.lettingOut, Visit.releasing]

theorem Sign.effective_eq_off {g : Sign} : g.effective = .off ↔ g.cls ≠ .ticket ∧ g.mode = .off := by
  by_cases ticket : g.cls = .ticket
  · simp [Sign.effective, ticket]
  · simp [Sign.effective, ticket]

/-- The report of a job that ended: the visit is as `y` there, and the sign as `g` (R195). -/
theorem report_of_ended {g : Sign} (resident : (w.lane n).resident = some v) (state : y.state = .directing)
    (visits : w.visits = s.visits.set v { s.visits[v] with visit := some y }) (signs : w.signs = s.signs.set n g)
    (mark : g.reportMark = false) : w.report n = { w with
      lanes := w.lanes.set n ((w.lane n).lettingOut w.loops[n].exit)
      visits := s.visits.set v { s.visits[v] with visit := some y.releasing }
      signs := s.signs.set n { g with reportMark := true, printDue := false } } := by
  have sign : w.sign n = g := sign_set_same signs
  rw [report_of_directing ⟨resident, visit_set_same visits⟩ state (by rw [sign, mark]), sign, visits, signs]
  simp

theorem jobDone_eq (here : s.visit v = some x) (n : Lane) (j : Job) : s.jobDone n j = { s with
    visits := s.visits.set v { s.visits[v] with visit := some x }
    signs := s.signs.set n { (s.sign n).accepted j with job := .idle } } := by
  rw [visits_set_self here]
  rfl

/-- An event that ends with the jobs due, its own lane's first. -/
theorem becomes_of_run {a : Instr} (run : exec a s = .next (startJobOn false n w).startJobs) :
    ∃ t : State, exec a s = .next t ∧ t = { w with signs := t.signs } ∧ SignsMayStart w t :=
  ⟨_, run, startsThenAll w n⟩

theorem becomes_of_startJobs {a : Instr} (run : exec a s = .next w.startJobs) :
    ∃ t : State, exec a s = .next t ∧ t = { w with signs := t.signs } ∧ SignsMayStart w t :=
  ⟨_, run, startJobs_eq w, startJobs_mayStart w⟩

section
variable (resident : s.Resident n v x) (directing : x.state = .directing)
include resident directing

/-- The failed job of a visit in DIRECTING (R193, R195 case 2). -/
theorem failJob_of_own (own : j.subject = some (s.handle v)) :
    s.failJob n j = ((s.jobFailed n).faulted v x).report n := by
  have lost : s.jobLost n j = (s.jobFailed n).faulted v x := jobLost_of_named own (named_handle resident.2)
  have visit : ((s.jobFailed n).faulted v x).visit v = some { x with signFault := true } :=
    visit_set_same (y := { s.visits[v] with visit := some { x with signFault := true } }) rfl
  have handle : ((s.jobFailed n).faulted v x).handle v = s.handle v := by
    simp [State.handle, State.faulted, State.jobFailed]
  rw [failJob_eq, lost, reportLoss_of_own (s := (s.jobFailed n).faulted v x) ⟨resident.1, visit⟩ directing
    (by rw [own, handle])]

theorem failJob_of_unnamed (unnamed : ∀ h, j.subject = some h → s.named h = none) : s.failJob n j = s.jobFailed n := by
  have other : j.subject ≠ some (s.handle v) := fun own => by
    have named := named_handle resident.2
    rw [unnamed _ own] at named
    cases named
  rw [failJob_eq, jobLost_of_unnamed unnamed, reportLoss_of_other (s := s.jobFailed n) resident directing other]

theorem failJob_of_another {z : Visit} (subject : j.subject = some h) (another : h ≠ s.handle v)
    (named : s.named h = some z) : s.failJob n j = (s.jobFailed n).faulted h.slot z := by
  have slot : v ≠ h.slot := fun same => another (by rw [same]; exact (named_eq_some.1 named).1.symm)
  have visit : ((s.jobFailed n).faulted h.slot z).visit v = some x :=
    (visit_set_other (s := s) rfl slot).trans resident.2
  have handle : ((s.jobFailed n).faulted h.slot z).handle v = s.handle v := by
    simp [State.handle, State.faulted, State.jobFailed, Vector.getElem_set, Fin.val_inj, slot.symm]
  rw [failJob_eq, jobLost_of_named subject named, reportLoss_of_other (s := (s.jobFailed n).faulted h.slot z)
    ⟨resident.1, visit⟩ directing     (by rw [subject, handle]; exact fun same => another (Option.some_inj.1 same))]

end

end Sys2Proof.Machine

open Sys2Proof Sys2Proof.Machine in
/-- Settles O51. -/
theorem directionsAreReportedOnce : Obligations.DirectionsAreReportedOnce := by
  intro s n v x resident length g shown put reported
  refine ⟨?enter, fun j power state sending small small' => ?job⟩
  case enter =>
    intro k y u w
    have isDirected : s.directed n v x = w := rfl
    have isReported : s.reported n v (s.sign n) { x with state := .directing, holdStart := none } = reported u k y := rfl
    have sign : w.sign n = k := sign_set_same rfl
    have reports : (w.sign n).effective = .off ∨ contentShown w n = true ↔ g.cls ≠ .ticket ∧ g.mode = .off ∨ shown w k := by
      rw [contentShown_iff (by rw [sign]; exact length), Sign.effective_eq_off, sign]
    refine ⟨fun at_once => ?_, fun later => ?_⟩
    · rw [enterDirecting_of_reported resident.2 resident.1 (reports.2 at_once), isReported]
    · rw [enterDirecting_eq resident.2, isDirected, if_neg (mt reports.1 later)]
  case job =>
    intro reply becomes own done failed joined
    refine ⟨fun last => ?_, fun a event => ?_⟩
    · have run : exec (reply 0x00#8) s = .next (s.acceptLine n j).startJobs := by
        rw [exec_signReply power (signReplyOf_of_verdict small small' (.inl rfl)), takeReply_of_awaited sending]
        rfl
      rw [acceptLine_of_last (by omega) resident state] at run
      have sign : (s.jobDone n j).sign n = done := sign_set_same rfl
      have isDone : s.jobDone n j = put s done x := jobDone_eq resident.2 n j
      have reports : (j.subject = some (s.handle v) ∧ j.directions = true ∨ contentShown (s.jobDone n j) n = true)
          ↔ (own ∧ j.directions = true ∨ shown (s.jobDone n j) done) := by
        rw [contentShown_iff (by rw [sign]; exact (List.length_set ..).trans length), sign]
      rw [← isDone]
      refine ⟨fun mark ended => ?_, fun silent => ?_⟩
      · rw [if_pos (reports.2 ended), report_of_ended (w := s.jobDone n j) (s := s) (g := done) resident.1 state
          (congrArg State.visits isDone) rfl mark] at run
        exact becomes_of_run run
      · split at run
        · next ended =>
          have mark : g.reportMark = true := silent.resolve_right (not_not_intro (reports.1 ended))
          rw [report_of_reported (by rw [sign]; exact mark)] at run
          exact becomes_of_run run
        · exact becomes_of_run run
    · have run : exec a s = .next (s.failJob n j).startJobs := by
        rcases event with rfl | ⟨rfl, due⟩
        · rw [exec_signReply power (signReplyOf_of_verdict small small' (.inr rfl)), takeReply_of_awaited sending]
          rfl
        · exact exec_replyTimerExpiry power due sending
      refine ⟨fun subject mark => ?_, fun subject mark => ?_, fun unnamed => ?_, fun h z subject another named => ?_⟩
      · rw [failJob_of_own resident state subject, report_of_ended (w := (s.jobFailed n).faulted v x) (s := s)
          (g := failed) (y := { x with signFault := true })
          resident.1 state rfl rfl mark] at run
        exact becomes_of_startJobs run
      · have sign : ((s.jobFailed n).faulted v x).sign n = failed := sign_set_same rfl
        rw [failJob_of_own resident state subject, report_of_reported (by rw [sign]; exact mark)] at run
        exact becomes_of_startJobs run
      · have isFailed : s.jobFailed n = put s failed x := by
          have same := visits_set_self resident.2
          simp only [put, same]
          rfl
        rw [failJob_of_unnamed resident state unnamed, isFailed] at run
        exact becomes_of_startJobs run
      · rw [failJob_of_another resident state subject another named] at run
        exact becomes_of_startJobs run

open Sys2Proof Sys2Proof.Machine in
/-- Settles O49. -/
theorem signJobsFollowRepliesAndRefreshEvents : Obligations.SignJobsFollowRepliesAndRefreshEvents := by
  refine ⟨fun s n j power sending => ?job, fun s n power due => ?refresh⟩
  case job =>
    intro g reply
    have replied {seq line : Nat} {verdict : Byte} (small : seq < 256) (small' : line < 256)
        (known : verdict = 0x00#8 ∨ verdict = 0x01#8) : exec (.signReply n (reply verdict seq line)) s
          = .next (s.takeReply n ⟨seq, line, verdict == 0x00#8⟩).startJobs :=
      exec_signReply power (signReplyOf_of_verdict small small' known)
    have accepted (small : j.seq < 256) (small' : j.awaited < 256) :
        exec (.signReply n (reply 0x00#8 j.seq j.awaited)) s = .next (s.acceptLine n j).startJobs := by
      rw [replied small small' (.inl rfl), takeReply_of_awaited sending]
      rfl
    have refused (small : j.seq < 256) (small' : j.awaited < 256) :
        exec (.signReply n (reply 0x01#8 j.seq j.awaited)) s = .next (s.failJob n j).startJobs := by
      rw [replied small small' (.inr rfl), takeReply_of_awaited sending]
      rfl
    refine ⟨fun verdict seq line small small' other => ?_, fun small small' more => ?_, exec_replyTimerExpiry_of_quiet,
      exec_refreshEvent_of_quiet, fun due => ?_, fun elsewhere => ?_⟩
    · by_cases known : verdict = 0x00#8 ∨ verdict = 0x01#8
      · refine ⟨s.startJobs, ?_, startJobs_eq s, startJobs_mayStart s⟩
        rw [replied small small' known, takeReply_of_other sending other]
      · exact ⟨s, exec_signReply_of_unknown power (signReplyOf_of_unknown known), rfl, .refl s⟩
    · have next := acceptLine_of_more (s := s) (n := n) more
      generalize s.acceptLine n j = w at next accepted
      have sign := sign_set_same (congrArg State.signs next)
      refine ⟨w.startJobs, accepted small small', (startJobs_eq w).trans (by rw [next]), fun m other =>
        startJobs_sign_of_set (congrArg State.signs next) other, ?_⟩
      rw [startJobs_sign_of_busy (by rw [sign]; exact nofun), sign]
      rfl
    · rw [exec_refreshEvent power due, refreshSign_of_sending (s := s.refreshTaken n) (j := j) sending]
      rfl
    · have fails {a : Instr} (run : exec a s = .next (s.failJob n j).startJobs) := exec_of_failed run elsewhere
      refine ⟨fun small small' last => ?_, fun small small' => fails (refused small small'), fun due =>
        fails (exec_replyTimerExpiry power due sending)⟩
      rw [accepted small small', acceptLine_of_elsewhere (by omega) elsewhere]
      exact ⟨_, rfl, startsThenAll (s.jobDone n j) n⟩
  case refresh =>
    intro spent g
    have run := exec_refreshEvent power due
    have spend : s.refreshTaken n = spent := rfl
    have held (hold : g.job = .hold) := exec_refreshEvent_of_hold power due hold
    have sign := released_sign s n
    have same := released_content s n
    have frame : s.released n = { spent with signs := s.signs.set n { g with job := .idle } } := rfl
    generalize s.released n = w at held sign same frame
    refine ⟨fun idle display once => ?_, fun idle quiet => ?_, fun hold quiet => ?_, fun hold => ?_,
      fun idle display repeating => ?_⟩
    · rw [run, refreshSign_of_once (s := s.refreshTaken n) idle display once]
      rfl
    · rw [run, refreshSign_of_quiet (s := s.refreshTaken n) idle quiet, spend]
    · rw [held hold, startJobOn_of_nothing sign quiet, frame]
    · rw [held hold, ← frame, ← same]
      refine ⟨_, rfl, startJobOn_eq false n w, startJobOn_mayStart false n w, fun m other => ?_,
        startJobOn_of_unknown sign, startJobOn_of_printDue sign⟩
      rw [startJobOn_other false other]
      exact sign_set_other (congrArg State.signs frame) other
    · obtain ⟨job, sends, first, awaited, lines⟩ := startJobOn_of_repeating (w := s.refreshTaken n) idle display repeating
      have content : content (s.refreshTaken n) n = content s n := content_of_refreshTaken rfl rfl rfl
      refine ⟨_, job, run.trans (congrArg _ (refreshSign_of_repeating (s := s.refreshTaken n) idle display repeating)),
        sends, first, awaited, lines.trans content, fun m other => startJobOn_other true other _, ?_⟩
      exact startJobOn_eq true n (s.refreshTaken n)
end

section
/-!
PROOFS. SIGN_SET (R198, R199).
-/

namespace Sys2Proof.Machine

variable {s t w : State} {f : ReqFrame} {rest : List ReqFrame} {n : Lane} {v : Fin 64} {x : Visit} {g : Sign} {r : SignReq}

theorem decodeAll_dSignSet {cls : Option SignClass} {mode : Option SendMode} {desk : Option (List Byte)} (clear : Bool)
    (fits : ∀ t ∈ desk, t.length < 256) :
    decodeAll dSignSet (laneByte n :: (eOpt (fun c : SignClass => e1 c.code) cls ++ eOpt (fun m : SendMode => e1 m.code) mode
      ++ eOpt eRaw desk ++ [if clear then 0x00#8 else 0x01#8])) = some (n.val + 1, ⟨cls, mode, desk.map normalise, clear⟩) := by
  have class_ (more : List Byte) : (dOpt (dEnum allSignClasses)).run (eOpt (fun c : SignClass => e1 c.code) cls ++ more)
      = some (cls, more) :=
    run_dOpt _ _ _ _ fun c _ r => run_dEnum _ _ c r (by cases c <;> rfl) (by cases c <;> decide)
  have sends (more : List Byte) : (dOpt (dEnum allSendModes)).run (eOpt (fun m : SendMode => e1 m.code) mode ++ more)
      = some (mode, more) :=
    run_dOpt _ _ _ _ fun m _ r => run_dEnum _ _ m r (by cases m <;> rfl) (by cases m <;> decide)
  have choice (more : List Byte) : (dEnum [true, false]).run ([if clear then 0x00#8 else 0x01#8] ++ more)
      = some (clear, more) := by
    cases clear
    · exact run_dEnum [true, false] 1 false more rfl (by decide)
    · exact run_dEnum [true, false] 0 true more rfl (by decide)
  apply decodeAll_of_run_nil
  rw [laneByte_cons]
  simp only [dSignSet, List.append_assoc, run_bind, run_d1 _ _ (laneNumber_lt n), class_, sends, run_dOpt_dText fits, choice,
    Option.bind_some, run_pure]

/-- The job state and the job record as SIGN_SET reports them (R198). -/
def eJob : JobState → List Byte
  | .sending j => 0x01#8 :: 0x01#8 :: e1 j.first ++ 0x01#8 :: e1 (j.first + j.lines.length - 1) ++ 0x01#8 :: e1 j.awaited
  | .idle => [0x00#8, 0x00#8, 0x00#8, 0x00#8]
  | .hold => [0x02#8, 0x00#8, 0x00#8, 0x00#8]

theorem eJob_eq (j : JobState) : e1 j.code ++ eOpt (fun j : Job => e1 j.first) j.job
    ++ eOpt (fun j : Job => e1 (j.first + j.lines.length - 1)) j.job ++ eOpt (fun j : Job => e1 j.awaited) j.job = eJob j := by
  cases j with
  | idle => rfl
  | hold => rfl
  | sending j => simp [JobState.code, JobState.job, eOpt, e1, eJob]

/-- A Sign Unit as SIGN_SET reports it (R198). -/
theorem eSign_eq (k : Sign) : eSign k = e1 k.cls.code ++ e1 k.mode.code ++ e1 k.effective.code ++ eText k.desk
    ++ eList (eOpt (eList eText)) k.mirror ++ eJob k.job ++ eFlag k.printDue ++ e1 k.seq ++ e2 k.reply ++ e2 k.faults := by
  rw [← eJob_eq]
  unfold eSign
  simp only [List.append_assoc]
  rfl

theorem set_sign_self (t : State) (n : Lane) : t.signs.set n (t.sign n) = t.signs := by
  simp [State.sign]

/-- A Sign Unit with its fault count set to 0, where that is asked for (R198). -/
def Sign.clearedIf (g : Sign) (clear : Bool) : Sign := if clear then { g with faults := 0 } else g

theorem serveSignSet_eq (n : Lane) (r : SignReq) (s : State) : serveSignSet n r s = accept
    { s.setSign n r with
      signs := (s.setSign n r).signs.set n (((s.setSign n r).sign n).clearedIf r.clear) }
    (eSign ((s.setSign n r).sign n)) := by
  unfold serveSignSet
  dsimp only
  generalize s.setSign n r = t
  cases r.clear with
  | true => rfl
  | false =>
    have same : (t.sign n).clearedIf false = t.sign n := rfl
    rw [same, set_sign_self]
    rfl

theorem startJobs_of_quiet (quiet : ∀ m : Lane, (s.sign m).job = .idle → jobDue s m false = none) : s.startJobs = s := by
  have each (m : Lane) : startJobOn false m s = s := by
    by_cases idle : (s.sign m).job = .idle
    · exact startJobOn_of_none (quiet m idle)
    · exact startJobOn_of_busy idle
  have all (l : List Lane) : l.foldl (fun t m => startJobOn false m t) s = s := by
    induction l with
    | nil => rfl
    | cons m l ih => rw [List.foldl_cons, each, ih]
  exact all _

theorem switches_iff {old new : Sign} :
    old.switches new = true ↔ new.cls ≠ old.cls ∨ new.effective ≠ old.effective := by
  simp [Sign.switches, ne_comm]

theorem unreported_iff : s.unreported n = true ↔ (s.sign n).reportMark = false ∧ ∃ v x, s.Resident n v x ∧ x.state = .directing := by
  unfold State.unreported
  rw [Bool.and_eq_true, residentIn_isSome, and_comm]
  simp

/-- A state with a lane's Sign Unit replaced. -/
def State.putSign (s : State) (n : Lane) (g : Sign) : State := { s with signs := s.signs.set n g }

theorem putSign_sign (s : State) (n : Lane) (g : Sign) : (s.putSign n g).sign n = g := sign_set_same rfl

theorem putSign_putSign (s : State) (n : Lane) (g k : Sign) : (s.putSign n g).putSign n k = s.putSign n k := by
  simp [State.putSign]

theorem putSign_self (s : State) (n : Lane) : s.putSign n (s.sign n) = s := by
  rw [State.putSign, set_sign_self]

theorem modSign_eq (s : State) (n : Lane) (f : Sign → Sign) : s.modSign n f = s.putSign n (f (s.sign n)) := rfl

theorem setSign_eq (is : (s.sign n).apply r = g) : s.setSign n r =
    (if (s.sign n).switches g then (s.putSign n g).switchSign n else s.putSign n g).startJobs := by
  unfold State.setSign
  dsimp only
  rw [modSign_eq, is, putSign_sign]

theorem Sign.abandon_eq (g : Sign) : g.abandon = g.abandoned := by
  simp only [Sign.abandon, Sign.abandoned, unknownMirror, SignClass.lines_eq]

theorem effective_of_same {g k : Sign} (cls : k.cls = g.cls) (mode : k.mode = g.mode) : k.effective = g.effective := by
  simp only [Sign.effective, cls, mode]

/-- A change of class or effective mode (R199). -/
theorem switchSign_eq {b : Bool} (due : (g.cls == .ticket && (s.putSign n g).unreported n) = b) :
    (s.putSign n g).switchSign n =
      if g.effective = .off then (s.putSign n { g.abandoned with printDue := b }).report n
      else s.putSign n { g.abandoned with printDue := b } := by
  unfold State.switchSign
  dsimp only
  rw [modSign_eq, putSign_sign s n g, due, Sign.abandon_eq, putSign_putSign, putSign_sign,
    effective_of_same (g := g) (k := { g.abandoned with printDue := b }) rfl rfl]

/-- A job of the whole content of a lane starts (R191). -/
def Whole (lines : List Line) (k : Sign) : Prop :=
  ∃ j, k.job = .sending j ∧ j.first = 1 ∧ j.awaited = 1 ∧ j.lines = lines

/-- A sign whose whole content is due starts it (R188, R191). -/
theorem startJobs_whole (idle : (w.sign n).job = .idle) {lines : List Line} (due : jobDue w n false = some (1, lines)) :
    Whole lines (w.startJobs.sign n)
      ∧ (∀ v x, w.Resident n v x → x.state = .directing → ∀ j, (w.startJobs.sign n).job = .sending j →
          j.directions = true ∧ j.subject = some (w.handle v))
      ∧ ((w.sign n).cls = .ticket → (w.startJobs.sign n).printDue = false) := by
  rw [startJobs_sign, startJobOn_of_due idle due, Whole, sending_job]
  refine ⟨⟨_, rfl, rfl, rfl, rfl⟩, fun v x resident state j is => ?_, fun ticket => if_pos ticket⟩
  cases is
  exact ⟨showsDirections_iff.2 ⟨v, x, resident, .inl state⟩, signSubject_of_resident resident.1⟩

end Sys2Proof.Machine

open Sys2Proof Sys2Proof.Machine in
/-- Settles O48. -/
theorem signSetReadsOrReplacesTheSettings : Obligations.SignSetReadsOrReplacesTheSettings := by
  intro s f rest n cls mode desk clear ready fits fields old g effective switches directing unreported put cleared line job
    report answers becomes every
  have decoded : decodeAll dSignSet f.fields = some (n.val + 1, ⟨cls, mode, desk.map normalise, clear⟩) := by
    rw [fields]
    exact decodeAll_dSignSet clear fits
  have isApplied : ((s.taken rest).sign n).apply ⟨cls, mode, desk.map normalise, clear⟩ = g := by
    simp only [Sign.apply, Option.map_map]
    rfl
  have isEffective (k : Sign) : k.effective = effective k := rfl
  have isSwitches : ((s.taken rest).sign n).switches g = true ↔ switches := switches_iff
  have isPut (k : Sign) : (s.taken rest).putSign n k = put k := rfl
  have set := setSign_eq isApplied
  have answered : answers ((s.taken rest).setSign n ⟨cls, mode, desk.map normalise, clear⟩) := by
    generalize is : (s.taken rest).setSign n ⟨cls, mode, desk.map normalise, clear⟩ = t
    have served := serveSignSet_eq n ⟨cls, mode, desk.map normalise, clear⟩ (s.taken rest)
    rw [is] at served
    refine live_takeRequest_of_serve (code := 0x40#8) (serve := fun r t => onLane r.1 t fun n => serveSignSet n r.2 t) ready
      decoded ?_
    rw [onLane_number, served, eSign_eq]
    rfl
  have ends {w : State} {p : Sign → Prop} (is : (s.taken rest).setSign n ⟨cls, mode, desk.map normalise, clear⟩ = w.startJobs)
      (holds : p (w.startJobs.sign n)) : becomes w p := by
    rw [is] at answered
    exact ⟨w.startJobs, answered, startJobs_eq w, startJobs_mayStart w, holds⟩
  clear_value becomes
  have isUnreported : (put g).unreported n = true ↔ unreported := by
    rw [← isPut, unreported_iff, putSign_sign]
    exact Iff.rfl
  have sign (k : Sign) : (put k).sign n = k := putSign_sign (s.taken rest) n k
  have same (k : Sign) (cls : k.cls = g.cls) (desk : k.desk = g.desk) : content (put k) n = content (put g) n :=
    content_congr rfl rfl rfl (fun _ => rfl) (by rw [sign, sign, cls]) (by rw [sign, sign, desk])
  have changed (b : Bool) (switches' : switches) (due : (g.cls == .ticket && (put g).unreported n) = b) :
      (s.taken rest).setSign n ⟨cls, mode, desk.map normalise, clear⟩ =
        (if g.effective = .off then (put { g.abandoned with printDue := b }).report n
          else put { g.abandoned with printDue := b }).startJobs := by
    rw [set, if_pos (isSwitches.2 switches'), switchSign_eq due]
    rfl
  have wholly (display : g.cls ≠ .ticket) (on : g.mode ≠ .off) : every ((put g.abandoned).startJobs.sign n)
      ∧ ∀ v x, directing v x → ∀ j, ((put g.abandoned).startJobs.sign n).job = .sending j →
        j.directions = true ∧ j.subject = some (s.handle v) := by
    obtain ⟨whole, direct, -⟩ := startJobs_whole (w := put g.abandoned) (by rw [sign]; rfl)
      (jobDue_of_unknown (by rw [sign]; exact display) (by rw [sign]; exact on) (by rw [sign]; rfl))
    rw [same g.abandoned rfl rfl] at whole
    exact ⟨whole, fun v x there => direct v x there.1 there.2⟩
  refine ⟨fun kept => ?_, fun noClass noMode noDesk quiet => ?_, fun switched reported => ?_, fun v x switched there mark =>
    ⟨fun display on => ?_, fun ticket => ?_, fun display off => ?_⟩⟩
  · refine ends (w := put g) ?_ trivial
    rw [set, if_neg (mt isSwitches.1 kept)]
    rfl
  · have unchanged : g = old := by simp only [g, noClass, noMode, noDesk, Option.getD_none, Option.map_none]
    have still : put g = s.taken rest := (congrArg put unchanged).trans (putSign_self (s.taken rest) n)
    have kept : ¬ switches := by simp only [switches, unchanged, ne_eq, not_true_eq_false, or_self, not_false_eq_true]
    have is : (s.taken rest).setSign n ⟨cls, mode, desk.map normalise, clear⟩ = s.taken rest := by
      rw [set, if_neg (mt isSwitches.1 kept), isPut, still]
      exact startJobs_of_quiet quiet
    rw [is] at answered
    exact answered
  · have silent : (put g.abandoned).report n = put g.abandoned := by
      by_cases mark : g.reportMark = true
      · exact report_of_reported (by rw [sign]; exact mark)
      · exact report_of_other fun v x there state => reported ⟨Bool.not_eq_true _ ▸ mark, v, x, there, state⟩
    refine ends (w := put g.abandoned) ?_ ?_
    · rw [changed false switched (by simp [mt isUnreported.1 reported])]
      change (if g.effective = .off then (put g.abandoned).report n else put g.abandoned).startJobs = _
      rw [silent, ite_self]
    · split
      · next shown => exact wholly shown.1 shown.2
      · next quiet =>
        have idle : (put g.abandoned).sign n = { g.abandoned with job := .idle } := sign _
        rw [startJobs_sign, startJobOn_of_nothing idle, sign]
        · rfl
        · by_cases ticket : g.cls = .ticket
          · exact .inl ⟨ticket, rfl⟩
          · exact .inr ⟨ticket, not_not.1 fun on => quiet ⟨ticket, on⟩⟩
  · obtain ⟨whole, direct⟩ := wholly display on
    refine ends (w := put g.abandoned) ?_ ⟨whole, direct v x there⟩
    rw [changed false switched (by simp [display]), if_neg fun off => on (Sign.effective_eq_off.1 off).2]
    rfl
  · obtain ⟨whole, direct, printed⟩ := startJobs_whole (w := put { g.abandoned with printDue := true }) (n := n)
      (by rw [sign]; rfl) (by rw [jobDue_ticket (by rw [sign]; exact ticket), sign]; rfl)
    rw [same { g.abandoned with printDue := true } rfl rfl] at whole
    refine ends (w := put { g.abandoned with printDue := true }) ?_ ⟨whole, printed (by rw [sign]; exact ticket),
      direct v x there.1 there.2⟩
    rw [changed true switched (by simp [ticket, isUnreported.2 ⟨mark, v, x, there⟩]),
      if_neg fun off => (Sign.effective_eq_off.1 off).1 ticket]
  · obtain ⟨⟨resident, here⟩, state⟩ := there
    have reports : (put g.abandoned).report n = { put { g.abandoned with reportMark := true } with
        lanes := s.lanes.set n ((s.lane n).lettingOut s.loops[n].exit)
        visits := s.visits.set v { s.visits[v] with visit := some x.releasing } } := by
      rw [report_of_directing (s := put g.abandoned) ⟨resident, here⟩ state (by rw [sign]; exact mark), sign]
      simp only [put, Vector.set_set]
      rfl
    have after : ({ put { g.abandoned with reportMark := true } with
        lanes := s.lanes.set n ((s.lane n).lettingOut s.loops[n].exit)
        visits := s.visits.set v { s.visits[v] with visit := some x.releasing } } : State).sign n
          = { ({ g.abandoned with reportMark := true } : Sign) with job := .idle } := sign _
    refine ends (w := { put { g.abandoned with reportMark := true } with
      lanes := s.lanes.set n ((s.lane n).lettingOut s.loops[n].exit)
      visits := s.visits.set v { s.visits[v] with visit := some x.releasing } }) ?_ ?_
    · rw [changed false switched (by simp [display]), if_pos (Sign.effective_eq_off.2 ⟨display, off⟩)]
      exact congrArg State.startJobs reports
    · rw [startJobs_sign, startJobOn_of_nothing after (.inr ⟨display, off⟩), after]
end

section
/-!
PROOFS. The end of CHECKING (R75 to R77, R135, R147 to R150).
-/

namespace Sys2Proof.Machine

variable {s t u : State} {n : Lane} {v : Fin 64} {x y : Visit}

/-- What a pointwise change of a list leaves of its elements. -/
theorem map_zipWith_left {α β γ : Type} {f : α → β → α} {g : α → γ} (keeps : ∀ a b, g (f a b) = g a) :
    ∀ {l : List α} {m : List β}, m.length = l.length → (List.zipWith f l m).map g = l.map g
  | [], [], _ => rfl
  | a :: l, b :: m, length => by
    rw [List.zipWith_cons_cons, List.map_cons, List.map_cons, keeps, map_zipWith_left keeps (Nat.succ.inj length)]

/-! ### What the judging leaves of a leg (R101, R102, R115, R137) -/

/-- A leg without its findings. -/
def Leg.unjudged (l : Leg) : Leg := { l with
  bound := none, container := .notApplicable, sealVerdict := .notApplicable, findings := none, damage := none
  damageVerdict := .notApplicable }

theorem bindExact_unjudged (b : Book) (o : PosPair PosOutcome) (legs : List Leg) :
    (bindExact b o [] legs).map Leg.unjudged = legs.map Leg.unjudged := by
  rw [bindExact_eq]
  exact map_zipWith_left (fun l c => by cases c <;> rfl) (exactChoices_length [] legs)

theorem bindFallback_unjudged (b : Book) (o : PosPair PosOutcome) (legs : List Leg) :
    (bindFallback b o legs).map Leg.unjudged = legs.map Leg.unjudged := by
  unfold bindFallback
  dsimp only
  split
  · rw [List.map_map]
    refine List.map_congr_left fun l _ => ?_
    rw [Function.comp_apply]
    split <;> rfl
  · rfl

theorem judgeLeg_unjudged (b : Book) (c : Check) (y : Visit) (l : Leg) : (judgeLeg b c y l).unjudged = l.unjudged := by
  rw [judgeLeg_frame]
  rfl

/-- The judging changes the findings of the legs alone. -/
theorem judge_unjudged (x : Visit) (b : Book) (c : Check) :
    (x.judge b c).legs.map Leg.unjudged = x.legs.map Leg.unjudged := by
  rw [judge_eq]
  dsimp only
  rw [List.map_map, ← bindExact_unjudged b ⟨resolvePos c.containerFloor x.containers.one,
    resolvePos c.containerFloor x.containers.two⟩ x.legs, ← bindFallback_unjudged]
  exact List.map_congr_left fun l _ => judgeLeg_unjudged b c x l

theorem judge_refs (x : Visit) (b : Book) (c : Check) : (x.judge b c).legs.map (·.ref) = x.legs.map (·.ref) := by
  have refs (legs : List Leg) : legs.map (·.ref) = (legs.map Leg.unjudged).map (·.ref) := by
    rw [List.map_map]
    rfl
  rw [refs, judge_unjudged, ← refs]

/-! ### Allocation, as the end of CHECKING and a decision ask for it (R168, R172, R77, R78) -/

/-- A visit that enters DIRECTING is in it, or is reported at once. -/
theorem enterDirecting_cases (resident : s.Resident n v x) : s.enterDirecting n v = s.directed n v x
    ∨ s.enterDirecting n v = s.reported n v (s.sign n) { x with state := .directing, holdStart := none } := by
  by_cases reports : ((s.directed n v x).sign n).effective = .off ∨ contentShown (s.directed n v x) n
  · exact .inr (enterDirecting_of_reported resident.2 resident.1 reports)
  · rw [enterDirecting_eq resident.2, if_neg reports]
    exact .inl rfl

/-- The visit after an allocation. -/
inductive Allocated (s : State) (x : Visit) : Visit → Prop
  | waits : Allocated s x { x with state := .yardWait, holdStart := some (s.time.minute, s.time.phase) }
  | directs (dests : List (Option Dest)) (fits : s.placeLegs [] [] x.legs = some dests) : Allocated s x
      { x with legs := List.zipWith Leg.setDest x.legs dests, state := .directing, holdStart := none }
  | reported (dests : List (Option Dest)) (fits : s.placeLegs [] [] x.legs = some dests) : Allocated s x
      { x with legs := List.zipWith Leg.setDest x.legs dests, state := .releasing, holdStart := none, timeoutDue := false }

/-- What an allocation leaves alone. -/
structure Allocates (s t : State) (v : Fin 64) (x z : Visit) : Prop where
  frame : t = { s with
    link := { s.link with changes := t.link.changes }, lanes := t.lanes, visits := t.visits, yard := t.yard, signs := t.signs }
  visits : t.visits = s.visits.set v { s.visits[v] with visit := some z }
  visit : Allocated s x z
  queue : z.state = .yardWait → s.handle v ∈ t.yard.queue
  residents : ∀ m, (t.lane m).resident = (s.lane m).resident

theorem residents_of_set {l : LaneUnit} (lanes : t.lanes = s.lanes.set n l) (same : l.resident = (s.lane n).resident)
    (m : Lane) : (t.lane m).resident = (s.lane m).resident := by
  by_cases is : m = n
  · subst is
    rw [lane_set_same lanes, same]
  · rw [lane_set_other lanes is]

/-- A slot set twice. -/
theorem visits_set_set (z y : Visit) : (s.visits.set v { s.visits[v] with visit := some y }).set v
    { (s.visits.set v { s.visits[v] with visit := some y })[v] with visit := some z }
      = s.visits.set v { s.visits[v] with visit := some z } := by
  simp

theorem allocate_of_placed (here : s.visit v = some x) {dests : List (Option Dest)}
    (given : s.placeLegs [] [] x.legs = some dests) : s.allocate n v = State.enterDirecting { s with
      visits := s.visits.set v { s.visits[v] with visit := some { x with legs := List.zipWith Leg.setDest x.legs dests } }
      yard := s.yard.committed (s.handle v) x.legs dests } n v := by
  simp only [State.allocate, place_eq_some here given]

theorem allocate_spec (resident : s.Resident n v x) : ∃ z, Allocates s (s.allocate n v) v x z := by
  cases given : s.placeLegs [] [] x.legs with
  | none =>
    have waits : s.allocate n v = s.enterYardWait n v := by
      simp only [State.allocate, place_eq_none resident.2 given]
    rw [waits, enterYardWait_eq resident.2]
    exact ⟨_, rfl, rfl, .waits, fun _ => by simp, residents_of_set rfl rfl⟩
  | some dests =>
    rw [allocate_of_placed resident.2 given]
    generalize s.yard.committed (s.handle v) x.legs dests = yard
    have seated : State.Resident { s with
        visits := s.visits.set v { s.visits[v] with visit := some { x with legs := List.zipWith Leg.setDest x.legs dests } }
        yard := yard } n v { x with legs := List.zipWith Leg.setDest x.legs dests } :=
      ⟨resident.1, visit_set_same (y := { s.visits[v] with
        visit := some { x with legs := List.zipWith Leg.setDest x.legs dests } }) rfl⟩
    rcases enterDirecting_cases seated with directs | reported
    · rw [directs]
      exact ⟨_, rfl, visits_set_set _ _, .directs dests given, nofun, residents_of_set rfl rfl⟩
    · rw [reported]
      exact ⟨_, rfl, visits_set_set _ _, .reported dests given, nofun, residents_of_set rfl rfl⟩

/-! ### The end of CHECKING (R76, R149, R150) -/

theorem endOfChecking_of_unclean (here : s.visit v = some x) (unclean : (x.judge s.book s.check).isClean = false) :
    s.endOfChecking n v = { s with
      link := { s.link with changes := joinList (.visit v) s.link.changes }
      lanes := s.lanes.set n { s.lane n with dwell := ⟨.oneShot, (s.lane n).limits.hold, .hold, 0⟩ }
      visits := s.visits.set v { s.visits[v] with visit := some { x.judge s.book s.check with
        state := .held, holdStart := some (s.time.minute, s.time.phase) } } } := by
  unfold State.endOfChecking
  rw [here]
  dsimp only
  rw [unclean, modVisit_eq here]
  generalize x.judge s.book s.check = y
  simp only [Bool.false_eq_true, if_false]
  rw [enterHeld_eq (x := y) (visit_set_same (y := { s.visits[v] with visit := some y }) rfl)]
  simp [State.lane]

theorem admitLegs_actsOnBook (h : Handle) (legs : List Leg) : ActsOnBook fun s => s.admitLegs h legs :=
  ActsOnBook.foldl (f := fun u l => u.admitBooking l h) (fun l => admitBooking_actsOnBook l h) legs

/-- An automatic admission of a judged visit (R149). -/
theorem autoAdmit_eq (s : State) (v : Fin 64) (y : Visit) (n : Lane) :
    State.autoAdmit { s with visits := s.visits.set v { s.visits[v] with visit := some y } } n v = State.allocate { s with
      book := (s.admitLegs (s.handle v) y.legs).book
      ring := (s.admitLegs (s.handle v) y.legs).ring
      visits := s.visits.set v { s.visits[v] with visit := some { y with
        legs := y.legs.map fun l => { l with disposition := .yard }
        source := some .auto
        outcome := some .admission } } } n v := by
  have judged : ({ s with visits := s.visits.set v { s.visits[v] with visit := some y } } : State).visit v = some y :=
    visit_set_same (y := { s.visits[v] with visit := some y }) rfl
  have handle : ({ s with visits := s.visits.set v { s.visits[v] with visit := some y } } : State).handle v = s.handle v := by
    simp [State.handle]
  unfold State.autoAdmit
  rw [judged]
  dsimp only
  have admits := admitLegs_actsOnBook (s.handle v) y.legs s
    { s with visits := s.visits.set v { s.visits[v] with visit := some y } } rfl rfl
  beta_reduce at admits
  rw [handle, admits]
  generalize (s.admitLegs (s.handle v) y.legs).book = book
  generalize (s.admitLegs (s.handle v) y.legs).ring = ring
  have there : State.visit { s with
      book := book, ring := ring, visits := s.visits.set v { s.visits[v] with visit := some y } } v = some y := judged
  refine congrArg (fun t => State.allocate t n v) ((modVisit_eq there _).trans ?_)
  simp

theorem endOfChecking_of_clean (here : s.visit v = some x) (clean : (x.judge s.book s.check).isClean = true) :
    s.endOfChecking n v =
      let admitted := s.admitLegs (s.handle v) (x.judge s.book s.check).legs
      State.allocate { s with
        book := admitted.book
        ring := admitted.ring
        visits := s.visits.set v { s.visits[v] with visit := some { x.judge s.book s.check with
          legs := (x.judge s.book s.check).legs.map fun l => { l with disposition := .yard }
          source := some .auto
          outcome := some .admission } } } n v := by
  unfold State.endOfChecking
  rw [here]
  dsimp only
  rw [clean, modVisit_eq here]
  rw [if_pos rfl]
  exact autoAdmit_eq s v _ n

/-- The legs of an allocation that every leg is placed by (R168). -/
theorem placed_legs {legs : List Leg} {dests : List (Option Dest)} (given : s.placeLegs [] [] legs = some dests)
    (placed : ∀ l ∈ legs, l.disposition = .yard) : (List.zipWith Leg.setDest legs dests).map (·.ref) = legs.map (·.ref)
      ∧ ∀ l ∈ List.zipWith Leg.setDest legs dests, l.disposition = .yard ∧ (l.done = false → l.dest ≠ none) := by
  obtain ⟨length, fits⟩ := (placeLegs_eq_some [] []).1 given
  refine ⟨map_zipWith_left (fun l d => by cases d <;> rfl) length, fun l mem => ?_⟩
  obtain ⟨i, here⟩ := List.mem_iff_getElem?.1 mem
  obtain ⟨a, d, at_, given, rfl⟩ := List.getElem?_zipWith_eq_some.1 here
  have yard := placed a (List.mem_of_getElem? at_)
  cases d with
  | some e => exact ⟨yard, nofun⟩
  | none =>
    refine ⟨yard, fun open_ => ?_⟩
    obtain ⟨e, is, -⟩ := (fits i a at_).2 ⟨.inl yard, open_⟩
    cases given.symm.trans is

/-- What the visit of an automatic admission is after it (R77, R149, R172). -/
theorem Allocated.of_admitted {z : Visit} (placed : ∀ l ∈ x.legs, l.disposition = .yard) (is : Allocated s x z) :
    z.source = x.source ∧ z.outcome = x.outcome ∧ z.legs.map (·.ref) = x.legs.map (·.ref)
      ∧ (∀ l ∈ z.legs, l.disposition = .yard)
      ∧ (z.state = .yardWait ∧ z.holdStart = some (s.time.minute, s.time.phase)
        ∨ (z.state = .directing ∨ z.state = .releasing) ∧ z.holdStart = none ∧ ∀ l ∈ z.legs, l.done = false → l.dest ≠ none) := by
  cases is with
  | waits => exact ⟨rfl, rfl, rfl, placed, .inl ⟨rfl, rfl⟩⟩
  | directs dests given =>
    obtain ⟨refs, legs⟩ := placed_legs given placed
    exact ⟨rfl, rfl, refs, fun l mem => (legs l mem).1, .inr ⟨.inl rfl, rfl, fun l mem => (legs l mem).2⟩⟩
  | reported dests given =>
    obtain ⟨refs, legs⟩ := placed_legs given placed
    exact ⟨rfl, rfl, refs, fun l mem => (legs l mem).1, .inr ⟨.inr rfl, rfl, fun l mem => (legs l mem).2⟩⟩

end Sys2Proof.Machine

open Sys2Proof Sys2Proof.Machine in
/-- Settles O38. -/
theorem endOfCheckingHoldsOrAdmits : Obligations.EndOfCheckingHoldsOrAdmits := by
  intro s n v x resident state y t admitted store
  refine ⟨endOfChecking_of_unclean resident.2, fun clean => ?_⟩
  let ready : Visit := { y with
    legs := y.legs.map fun l => { l with disposition := .yard }, source := some .auto, outcome := some .admission }
  have is : t = State.allocate { s with book := admitted.book, ring := admitted.ring, visits := store ready } n v :=
    endOfChecking_of_clean resident.2 clean
  have seated : State.Resident { s with book := admitted.book, ring := admitted.ring, visits := store ready } n v ready :=
    ⟨resident.1, visit_set_same (y := { s.visits[v] with visit := some ready }) rfl⟩
  obtain ⟨z, frame, visits, allocated, queue, -⟩ := allocate_spec seated
  have handle : State.handle { s with book := admitted.book, ring := admitted.ring, visits := store ready } v = s.handle v := by
    simp [State.handle, store]
  have yard : ∀ l ∈ ready.legs, l.disposition = .yard := fun l mem => by
    obtain ⟨l, -, rfl⟩ := List.mem_map.1 mem
    rfl
  obtain ⟨source, outcome, refs, legs, ends⟩ := allocated.of_admitted yard
  rw [← is] at frame visits queue
  have names : ready.legs.map (·.ref) = x.legs.map (·.ref) := by
    rw [← judge_refs x s.book s.check, List.map_map]
    rfl
  refine ⟨is, by rw [frame], by rw [frame], z, visit_set_same visits, source, outcome, refs.trans names, legs, ?_⟩
  rcases ends with ⟨waits, start⟩ | directs
  · exact .inl ⟨waits, handle ▸ queue waits, start⟩
  · exact .inr directs
end

section
/-!
PROOFS. The expiries of the dwell timer (R74, R75, R77, R80, R157, R175).
-/

namespace Sys2Proof.Machine

variable {s t u w : State} {n : Lane} {v : Fin 64} {x y z : Visit} {l : LaneUnit}

/-! ### A visit, or a lane, replaced -/

/-- A state with the visit of an open slot replaced. -/
def State.putVisit (s : State) (v : Fin 64) (y : Visit) : State :=
  { s with visits := s.visits.set v { s.visits[v] with visit := some y } }

theorem putVisit_visit (s : State) (v : Fin 64) (y : Visit) : (s.putVisit v y).visit v = some y :=
  visit_set_same (y := { s.visits[v] with visit := some y }) rfl

theorem putVisit_visit_other {m : Fin 64} (other : m ≠ v) (y : Visit) : (s.putVisit v y).visit m = s.visit m :=
  visit_set_other rfl other

theorem putVisit_handle (s : State) (v m : Fin 64) (y : Visit) : (s.putVisit v y).handle m = s.handle m := by
  rw [State.handle, State.handle, gen_set (s := s) (v := v) rfl]

theorem putVisit_putVisit (s : State) (v : Fin 64) (y z : Visit) : (s.putVisit v y).putVisit v z = s.putVisit v z :=
  congrArg (fun visits => { s with visits := visits }) (visits_set_set z y)

theorem putVisit_self (here : s.visit v = some x) : s.putVisit v x = s := by
  rw [State.putVisit, visits_set_self here]

theorem modVisit_put (here : s.visit v = some x) (f : Visit → Visit) : s.modVisit v f = s.putVisit v (f x) :=
  modVisit_eq here f

/-- A state with a Lane Unit replaced. -/
def State.putLane (s : State) (n : Lane) (l : LaneUnit) : State := { s with lanes := s.lanes.set n l }

theorem putLane_lane (s : State) (n : Lane) (l : LaneUnit) : (s.putLane n l).lane n = l := lane_set_same rfl

theorem putLane_putLane (s : State) (n : Lane) (l k : LaneUnit) : (s.putLane n l).putLane n k = s.putLane n k := by
  simp [State.putLane]

theorem putLane_self (s : State) (n : Lane) : s.putLane n (s.lane n) = s := by
  simp [State.putLane, State.lane]

theorem modLane_put (s : State) (n : Lane) (f : LaneUnit → LaneUnit) : s.modLane n f = s.putLane n (f (s.lane n)) := rfl

/-- A resident visit, after its record and its lane's timer and marks changed. -/
theorem Resident.put (resident : s.Resident n v x) (y : Visit) (same : l.resident = (s.lane n).resident) :
    ((s.putLane n l).putVisit v y).Resident n v y :=
  ⟨(congrArg LaneUnit.resident (putLane_lane s n l)).trans (same.trans resident.1), putVisit_visit (s.putLane n l) v y⟩

/-! ### The settle notice (R133, R135, R136) -/

theorem flush_eq (g : GradeLane) : g.flush = g.emptied := by
  unfold GradeLane.flush GradeLane.emptied
  cases g.pending with
  | none => rfl
  | some c => simp [satSucc_eq]

/-- A state with a lane's part of the Damage Grader replaced. -/
def State.putGrade (s : State) (n : Lane) (g : GradeLane) : State :=
  { s with grader := { s.grader with lanes := s.grader.lanes.set n g } }

theorem putGrade_self (s : State) (n : Lane) : s.putGrade n s.grader.lanes[n] = s := by
  simp [State.putGrade]

theorem closeGrading_eq (here : s.visit v = some x) (n : Lane) :
    s.closeGrading n v = (s.putVisit v { x with grading := .closed }).putGrade n s.grader.lanes[n].emptied := by
  unfold State.closeGrading
  rw [modVisit_put here, ← flush_eq]
  rfl

theorem noticed_of_flying (is : x.grading = .isOpen) : x.noticed true = { x with grading := .closing } := by
  simp only [Visit.noticed, is]

theorem noticed_of_still (is : x.grading = .isOpen) : x.noticed false = { x with
    grading := .closed, stability := ⟨x.stability.one.force, x.stability.two.force⟩ } := by
  simp only [Visit.noticed, is]

theorem noticed_of_other (other : x.grading ≠ .isOpen) (b : Bool) : x.noticed b = x := by
  unfold Visit.noticed
  split
  · exact absurd ‹_› other
  · exact absurd ‹_› other
  · rfl
  · rfl

theorem settleNotice_eq (here : s.visit v = some x) (n : Lane) : s.settleNotice n v =
    { s.putVisit v (x.noticed (s.grader.inFlight.any fun p => p.1 == n)) with
      grader := { s.grader with lanes :=
        if x.grading = .isOpen then s.grader.lanes.set n s.grader.lanes[n].emptied else s.grader.lanes } } := by
  unfold State.settleNotice
  rw [here]
  dsimp only
  by_cases is : x.grading = .isOpen
  · rw [if_pos is, if_pos is]
    cases flying : s.grader.inFlight.any fun p => p.1 == n with
    | true =>
      rw [if_pos rfl, modVisit_put here, noticed_of_flying is, ← flush_eq]
      rfl
    | false =>
      rw [if_neg Bool.false_ne_true, modVisit_put here, closeGrading_eq (putVisit_visit s v x.force), putVisit_putVisit,
        noticed_of_still is]
      rfl
  · rw [if_neg is, if_neg is, noticed_of_other is, putVisit_self here]

/-! ### Expiries (R67, R74, R75, R80, R157, R175) -/

/-- A Lane Unit with one expiry of its dwell timer taken. -/
def LaneUnit.spent (l : LaneUnit) : LaneUnit := { l with dwell := { l.dwell with due := l.dwell.due - 1 } }

theorem takeExpiry_eq (s : State) (n : Lane) : s.takeExpiry n = s.putLane n (s.lane n).spent := rfl

section
variable {k : LimitKind}

theorem expiryDue_iff : l.expiryDue k = true ↔ l.dwell.limit = k ∧ 0 < l.dwell.due := by
  simp [LaneUnit.expiryDue]

theorem expiring_of_due (due : (s.lane n).dwell.limit = k ∧ 0 < (s.lane n).dwell.due) (resident : s.Resident n v x)
    {st : VisitState} (state : x.state = st) : s.expiring n st k = some (v, x) := by
  rw [State.expiring, if_pos (expiryDue_iff.2 due)]
  exact residentIn_eq_some.2 ⟨resident, state⟩

theorem expiring_of_none (none_ : (s.lane n).dwell.due = 0) (st : VisitState) (k : LimitKind) : s.expiring n st k = none :=
  if_neg fun due => by
    have := (expiryDue_iff.1 due).2
    omega

end

theorem enterHeld_put (here : s.visit v = some x) (n : Lane) : s.enterHeld n v =
    (((s.putLane n { s.lane n with dwell := ⟨.oneShot, (s.lane n).limits.hold, .hold, 0⟩ }).putVisit v
      { x with state := .held, holdStart := some (s.time.minute, s.time.phase) }).join (.visit v)) :=
  enterHeld_eq here n

theorem approachExpires_eq (resident : s.Resident n v x) : s.approachExpires n v =
    let y : Visit := ({ x with
      state := .held
      holdStart := some (s.time.minute, s.time.phase)
      reasons := { x.reasons with approachTimeout := true } } : Visit).noticed (s.grader.inFlight.any fun p => p.1 == n)
    { (s.putLane n { s.lane n with dwell := ⟨.oneShot, (s.lane n).limits.hold, .hold, 0⟩ }).putVisit v y with
      link := { s.link with changes := joinList (.visit v) s.link.changes }
      grader := { s.grader with lanes :=
        if x.grading = .isOpen then s.grader.lanes.set n s.grader.lanes[n].emptied else s.grader.lanes } } := by
  have here : (s.takeExpiry n).visit v = some x := resident.2
  unfold State.approachExpires
  rw [modVisit_put here, enterHeld_put (putVisit_visit _ _ _), takeExpiry_eq]
  have held : ∀ (a b : State) (y : Visit), ((a.putVisit v y).join (.visit v)).visit v = some y :=
    fun a _ y => putVisit_visit a v y
  rw [settleNotice_eq (held _ s _)]
  simp [State.putLane, State.putVisit, State.join, State.lane, LaneUnit.spent]

theorem yardWaitExpires_eq (resident : s.Resident n v x) : s.yardWaitExpires n v =
    { (s.putLane n { s.lane n with dwell := ⟨.oneShot, (s.lane n).limits.hold, .hold, 0⟩ }).putVisit v { x with
        state := .held
        holdStart := some (s.time.minute, s.time.phase)
        reasons := { x.reasons with noYardSpace := true } } with
      link := { s.link with changes := joinList (.visit v) s.link.changes }
      yard := { s.yard with queue := s.yard.queue.filter (· != s.handle v) } } := by
  have here : ((s.takeExpiry n).leaveQueue (s.handle v)).visit v = some x := resident.2
  unfold State.yardWaitExpires
  rw [modVisit_put here, enterHeld_put (putVisit_visit _ _ _), takeExpiry_eq]
  simp [State.putLane, State.putVisit, State.join, State.lane, LaneUnit.spent, State.leaveQueue]

/-- A visit turned away as its lane's timer expires (R157). -/
theorem turnAway_of_spent (here : s.visit v = some x) (n : Lane) (src : DecisionSource) (out : ReleaseOutcome) :
    (s.takeExpiry n).turnAway n v src out = { s with
      book := (s.reverted (s.handle v) x.legs).book
      ring := (s.reverted (s.handle v) x.legs).ring
      lanes := s.lanes.set n ((s.lane n).lettingOut s.loops[n].exit)
      visits := s.visits.set v { s.visits[v] with visit := some { x with
        legs := x.legs.map fun l => { l with disposition := .dropped, dest := none }
        source := some src
        outcome := some out
        state := .releasing
        holdStart := none
        timeoutDue := false } }
      signs := s.signs.set n { s.sign n with printDue := false } } := by
  have acts := reverted_actsOnBook (s.handle v) x.legs
  have book := acts.book_eq (s := s) (t := s.takeExpiry n) rfl rfl
  have ring := acts.ring_eq (s := s) (t := s.takeExpiry n) rfl rfl
  have handle : (s.takeExpiry n).handle v = s.handle v := rfl
  rw [turnAway_eq (s := s.takeExpiry n) here, handle, book, ring]
  generalize (s.reverted (s.handle v) x.legs).book = book
  generalize (s.reverted (s.handle v) x.legs).ring = ring
  simp [State.takeExpiry, State.modLane, LaneUnit.lettingOut, State.lane, State.sign]

theorem lettingOut_of (out : (∃ v x, s.Resident n v x ∧ x.state = .releasing)
    ∨ ((s.lane n).resident = none ∧ (s.lane n).releasing = true)) : s.lettingOut n = true := by
  unfold State.lettingOut
  rw [Bool.or_eq_true, beq_iff_eq]
  exact out.imp residentIn_isSome.2 fun ⟨empty, releasing⟩ => laneState_of_releasing empty releasing

/-! ### The test that ends CHECKING (R75) -/

theorem noDropLeg_iff : x.noDropLeg = true ↔ x.card = .done ∧ ∀ l ∈ x.legs, ¬ l.IsDrop := by
  simp [Visit.noDropLeg, ← Leg.isDrop_iff]

theorem checkingDone_iff : x.checkingDone = true ↔ x.CheckingEnds := by
  simp only [Visit.checkingDone, Bool.and_eq_true, Bool.or_eq_true, beq_iff_eq, noDropLeg_iff]
  constructor
  · rintro ⟨⟨settled, card⟩, grading⟩
    exact ⟨settled, card, grading.symm⟩
  · rintro ⟨settled, card, grading⟩
    exact ⟨⟨settled, card⟩, grading.symm⟩

section
variable (resident : s.Resident n v x) (checking : x.state = .checking)
include resident checking

theorem testChecking_of_ends (ends : x.CheckingEnds) : s.testChecking n = s.endOfChecking n v := by
  simp only [State.testChecking, residentIn_eq_some.2 ⟨resident, checking⟩, checkingDone_iff.2 ends, if_true]

theorem testChecking_of_open (stays : ¬ x.CheckingEnds) : s.testChecking n = s := by
  simp only [State.testChecking, residentIn_eq_some.2 ⟨resident, checking⟩, mt checkingDone_iff.1 stays]
  exact if_neg Bool.false_ne_true

end

theorem noticed_state (x : Visit) (b : Bool) : (x.noticed b).state = x.state := by
  unfold Visit.noticed
  split <;> rfl

theorem any_lane_iff {o : Option (Lane × Scan)} : (o.any fun p => p.1 == n) = true ↔ ∃ c, o = some (n, c) := by
  rw [Option.any_eq_true]
  constructor
  · rintro ⟨⟨m, c⟩, rfl, same⟩
    exact ⟨c, congrArg (fun k => some (k, c)) (eq_of_beq same)⟩
  · rintro ⟨c, rfl⟩
    exact ⟨_, rfl, beq_self_eq_true n⟩

/-- The state at the settle limit's expiry, before the test of R75 (R75, R135). -/
theorem settleExpires_eq (here : s.visit v = some x) (n : Lane) : s.settleExpires n v x = State.testChecking { s with
    lanes := s.lanes.set n { s.lane n with
      dwell := if x.card = .done then (s.lane n).spent.dwell else ⟨.oneShot, (s.lane n).limits.card, .card, 0⟩ }
    visits := s.visits.set v { s.visits[v] with
      visit := some (({ x with settleExpired := true } : Visit).noticed (s.grader.inFlight.any fun p => p.1 == n)) }
    grader := { s.grader with lanes :=
      if x.grading = .isOpen then s.grader.lanes.set n s.grader.lanes[n].emptied else s.grader.lanes } } n := by
  have there : (s.takeExpiry n).visit v = some x := here
  unfold State.settleExpires
  rw [modVisit_put there, settleNotice_eq (putVisit_visit _ _ _), putVisit_putVisit]
  refine congrArg (fun u => State.testChecking u n) ?_
  by_cases card : x.card = .done
  · rw [if_pos card, if_pos card]
    rfl
  · rw [if_neg card, if_neg card]
    simp [State.loadDwell, State.modLane, State.takeExpiry, State.putVisit, State.lane, Limits.get]

theorem cardExpires_eq (here : s.visit v = some x) (n : Lane) : s.cardExpires n v = State.testChecking
    ((s.putLane n (s.lane n).spent).putVisit v { x with reasons := { x.reasons with noCard := true } }) n := by
  have there : (s.takeExpiry n).visit v = some x := here
  unfold State.cardExpires
  rw [modVisit_put there]
  rfl

/-- A visit with NO_CARD is not clean (R148). -/
theorem isClean_of_noCard (noCard : x.reasons.noCard = true) (b : Book) (c : Check) : (x.judge b c).isClean = false := by
  have stands : (x.judge b c).reasons.noCard = true := by
    rw [judge_eq]
    exact noCard
  rw [Bool.eq_false_iff]
  intro clean
  rw [((isClean_iff _).1 clean).2.1] at stands
  cases stands

end Sys2Proof.Machine

open Sys2Proof Sys2Proof.Machine in
/-- Settles O44. -/
theorem dwellExpiriesActByTheVisitsState : Obligations.DwellExpiriesActByTheVisitsState := by
  refine ⟨fun s n power spent a mem => ?none, fun s n power limit due out => ?clear, fun s n v x power resident => ?visit⟩
  case none =>
    have quiet (st : VisitState) (k : LimitKind) : s.expiring n st k = none := expiring_of_none spent st k
    have unclear : (s.lane n).expiryDue .clear = false := by simp [LaneUnit.expiryDue, spent]
    simp only [List.mem_cons, List.not_mem_nil, or_false] at mem
    rcases mem with rfl | rfl | rfl | rfl | rfl | rfl
    · simp only [exec, execApproachLimitExpiry, quiet, live_on power]
    · simp only [exec, execSettleExpiry, quiet, live_on power]
    · simp only [exec, execCardLimitExpiry, quiet, live_on power]
    · simp only [exec, execHoldTimeout, quiet, live_on power]
    · simp only [exec, execYardWaitLimitExpiry, quiet, live_on power]
    · simp only [exec, execClearLimitExpiry, unclear, Bool.false_and, Bool.false_eq_true, if_false, live_on power]
  case clear =>
    have isDue : (s.lane n).expiryDue .clear = true := expiryDue_iff.2 ⟨limit, due⟩
    simp only [exec, execClearLimitExpiry, isDue, lettingOut_of out, Bool.and_self, if_true, live_on power]
    rw [takeExpiry_eq, modLane_put, putLane_lane, putLane_putLane]
    rfl
  case visit =>
    intro due spent visits heldLane now becomes
    refine ⟨fun isDue state => ?_, fun isDue state pending => ?_, fun isDue state card => ?_, fun isDue state => ?_⟩
    · refine becomes_of_startJobs ?_
      simp only [exec, execApproachLimitExpiry, expiring_of_due isDue resident state, live_on power,
        approachExpires_eq resident]
      rfl
    · refine becomes_of_startJobs ?_
      have here : (s.takeExpiry n).visit v = some x := resident.2
      simp only [exec, execHoldTimeout, expiring_of_due isDue resident state, live_on power, State.holdExpires,
        if_pos pending, modVisit_put here]
      rfl
    · refine becomes_of_startJobs ?_
      have runs : s.holdExpires n v x = (s.takeExpiry n).turnAway n v .auto .holdTimeout := if_neg card
      simp only [exec, execHoldTimeout, expiring_of_due isDue resident state, live_on power, runs]
      exact congrArg (fun u => Host.Outcome.next (State.startJobs u)) (turnAway_of_spent resident.2 n .auto .holdTimeout)
    · refine becomes_of_startJobs ?_
      simp only [exec, execYardWaitLimitExpiry, expiring_of_due isDue resident state, live_on power,
        yardWaitExpires_eq resident]
      rfl

open Sys2Proof Sys2Proof.Machine in
/-- Settles O37. -/
theorem settleAndCardExpiriesTestTheEndOfChecking : Obligations.SettleAndCardExpiriesTestTheEndOfChecking := by
  intro s n v x power resident state due becomes spent
  refine ⟨fun limit => ?settle, fun limit => ?card⟩
  case settle =>
    intro flying y u
    have run : exec (.settleExpiry n) s = .next (u.testChecking n).startJobs := by
      simp only [exec, execSettleExpiry, expiring_of_due ⟨limit, due⟩ resident state, live_on power,
        settleExpires_eq resident.2]
      rfl
    have lane : (u.lane n).resident = (s.lane n).resident := by simp [u, State.lane]
    have seated : u.Resident n v y := ⟨lane.trans resident.1, visit_set_same (y := { s.visits[v] with visit := some y }) rfl⟩
    have checking : y.state = .checking := (noticed_state _ _).trans state
    refine ⟨fun other => noticed_of_other (x := { x with settleExpired := true }) other _, fun open_ inFlight => ?_,
      fun open_ inFlight => ?_, fun ends => ?_, fun stays => ?_⟩
    · have is : flying = true := any_lane_iff.2 inFlight
      simp only [y, is]
      exact noticed_of_flying (x := { x with settleExpired := true }) open_
    · have is : flying = false := Bool.eq_false_iff.2 fun any => (any_lane_iff.1 any).elim inFlight
      simp only [y, is]
      exact noticed_of_still (x := { x with settleExpired := true }) open_
    · rw [testChecking_of_ends seated checking ends] at run
      exact becomes_of_startJobs run
    · rw [testChecking_of_open seated checking stays] at run
      exact becomes_of_startJobs run
  case card =>
    intro marked complete
    have run : exec (.cardLimitExpiry n) s
        = .next (((s.putLane n (s.lane n).spent).putVisit v marked).testChecking n).startJobs := by
      simp only [exec, execCardLimitExpiry, expiring_of_due ⟨limit, due⟩ resident state, live_on power,
        cardExpires_eq resident.2]
      rfl
    have seated : ((s.putLane n (s.lane n).spent).putVisit v marked).Resident n v marked := Resident.put resident marked rfl
    have ends : marked.CheckingEnds ↔ complete :=
      ⟨fun ⟨settled, _, grading⟩ => ⟨settled, grading.imp_right fun ⟨card, nothing⟩ =>
          ⟨card, fun l mem => not_or.1 (nothing l mem)⟩⟩,
        fun ⟨settled, grading⟩ => ⟨settled, .inr rfl, grading.imp_right fun ⟨card, nothing⟩ =>
          ⟨card, fun l mem => not_or.2 (nothing l mem)⟩⟩⟩
    refine ⟨fun stays => ?_, fun done => ?_⟩
    · rw [testChecking_of_open seated state (mt ends.1 stays)] at run
      exact becomes_of_startJobs run
    · rw [testChecking_of_ends seated state (ends.2 done),
        endOfChecking_of_unclean seated.2 (isClean_of_noCard rfl _ _)] at run
      refine becomes_of_startJobs (run.trans (congrArg (fun w => Host.Outcome.next (State.startJobs w)) ?_))
      simp [State.putLane, State.putVisit, State.lane, LaneUnit.spent]
end

section
/-!
PROOFS. The completion of an identification (R10, R11, R91, R93, R133, R134).
-/

namespace Sys2Proof.Machine

variable {s t u w : State} {n : Lane} {v : Fin 64} {x y : Visit} {h : Handle} {a : Nat} {ref : Text} {refs : List Text}

/-! ### The legs of a card (R91) -/

section
variable (book : t.book = s.book) (ring : t.ring = s.ring)
include book ring

theorem withBook_self : ({ t with book := s.book, ring := s.ring } : State) = t := by
  rw [← book, ← ring]

theorem claim_moves (h : Handle) (slot : Nat) (b : Booking) (taker : Option Window) : t.claim h slot b taker =
    { t with book := (s.claim h slot b taker).book, ring := (s.claim h slot b taker).ring } := by
  cases taker with
  | none => simp only [State.claim, book, ← ring]
  | some w => simp only [State.claim, book, ring]

/-- The leg of a reference follows from the book and the ring, and changes these alone. -/
theorem formLeg_moves (h : Handle) (a : Nat) (ref : Text) : t.formLeg h a ref =
    ({ t with book := (s.formLeg h a ref).1.book, ring := (s.formLeg h a ref).1.ring }, (s.formLeg h a ref).2) := by
  have found : findBooking t ref = findBooking s ref := by simp only [findBooking, book]
  unfold State.formLeg
  rw [found]
  cases findBooking s ref with
  | error code => rw [withBook_self book ring]
  | ok p =>
    obtain ⟨slot, b⟩ := p
    cases state : b.state with
    | booked => simp only [ring, claim_moves book ring, state]
    | inLane => simp only [state, withBook_self book ring]
    | admitted => simp only [state, withBook_self book ring]
    | noShow => simp only [state, withBook_self book ring]

end

/-- The legs of a card follow from the book and the ring, and change these alone. -/
theorem formLegs_moves (book : t.book = s.book) (ring : t.ring = s.ring) (h : Handle) (a : Nat) (refs : List Text) :
    t.formLegs h a refs = ({ t with book := (s.formLegs h a refs).1.book, ring := (s.formLegs h a refs).1.ring },
      (s.formLegs h a refs).2) := by
  induction refs generalizing s t with
  | nil => rw [State.formLegs, State.formLegs, withBook_self book ring]
  | cons ref refs ih =>
    rw [State.formLegs, State.formLegs, formLeg_moves book ring]
    dsimp only
    have rest := ih (s := (s.formLeg h a ref).1)
      (t := { t with book := (s.formLeg h a ref).1.book, ring := (s.formLeg h a ref).1.ring }) rfl rfl
    rw [rest]

/-- A leg carries the reference it was formed for (R91). -/
theorem formLeg_ref (s : State) (h : Handle) (a : Nat) (ref : Text) : (s.formLeg h a ref).2.ref = ref := by
  have refs (slot : Nat) (b : Booking) (found : findBooking s ref = .ok (slot, b)) : b.ref = ref := by
    unfold findBooking at found
    split at found
    · cases found
    · split at found
      · cases found
      · next slot' looked =>
        split at found
        · cases found
        · next b' there =>
          cases found
          obtain ⟨j, -, -, ⟨q, found, same⟩, -⟩ := lookup_eq_some_iff.1 looked
          cases there.symm.trans found
          exact same
  unfold State.formLeg
  split
  · rfl
  · next slot b found =>
    split <;> exact refs slot b found

theorem formLegs_refs (s : State) (h : Handle) (a : Nat) (refs : List Text) :
    (s.formLegs h a refs).2.map (·.ref) = refs := by
  induction refs generalizing s with
  | nil => rfl
  | cons ref refs ih =>
    rw [State.formLegs]
    simp only [List.map_cons, formLeg_ref, ih]

/-! ### The early completion of a grading (R134) -/

theorem isSettled_eq (p : Stability) : isSettled p.result = p.settled := by
  unfold isSettled Stability.settled
  cases p.result <;> rfl

theorem awaited_eq_false {c : Scan} : c.awaited h x = false ↔ (c.handle = h → (x.stability.get c.pos).result ≠ none) := by
  unfold Scan.awaited
  rw [Bool.and_eq_false_iff, beq_eq_false_iff_ne, Option.isNone_eq_false_iff, Option.isSome_iff_ne_none, imp_iff_not_or]

theorem any_eq_false {α : Type} {o : Option α} {p : α → Bool} : o.any p = false ↔ ∀ a, o = some a → p a = false := by
  cases o <;> simp

theorem earlyDone_iff : s.earlyDone n v x = true ↔ s.ClosesEarly n v x := by
  have settled (r : Stability) : isSettled r.result = r.settled := isSettled_eq r
  have count : x.results.countP isSettled = [x.stability.one, x.stability.two].countP Stability.settled := by
    simp only [Visit.results, List.countP_cons, List.countP_nil, settled]
  have drops : x.dropLegs.any (fun k => (k == 1 || k == 2) && decide (k ≤ x.results.countP isSettled)) = true ↔
      (x.dropLegs = some 1 ∨ x.dropLegs = some 2)
        ∧ ∀ k ∈ x.dropLegs, k ≤ [x.stability.one, x.stability.two].countP Stability.settled := by
    rw [count]
    cases x.dropLegs with
    | none => simp
    | some k => simp
  have seen : [x.stability.one, x.stability.two].all (fun p => p.scans == 0 || isSettled p.result) = true ↔
      ∀ p : Pos, 0 < (x.stability.get p).scans → (x.stability.get p).settled = true := by
    have each (r : Stability) : (r.scans == 0 || isSettled r.result) = true ↔ (0 < r.scans → r.settled = true) := by
      rw [settled, Bool.or_eq_true, beq_iff_eq, imp_iff_not_or, Nat.pos_iff_ne_zero, not_not]
    simp only [List.all_cons, List.all_nil, Bool.and_true, Bool.and_eq_true, each]
    exact ⟨fun ⟨one, two⟩ p => by cases p <;> assumption, fun all => ⟨all .one, all .two⟩⟩
  have flying : s.grader.inFlight.any (fun p => p.2.awaited (s.handle v) x) = false ↔
      ∀ m c, s.grader.inFlight = some (m, c) → c.handle = s.handle v → (x.stability.get c.pos).result ≠ none := by
    rw [any_eq_false]
    exact ⟨fun all m c is => awaited_eq_false.1 (all (m, c) is), fun all ⟨m, c⟩ is => awaited_eq_false.2 (all m c is)⟩
  have waiting : (s.grader.lanes[n].pending).any (fun c => c.awaited (s.handle v) x) = false ↔
      ∀ c, s.grader.lanes[n].pending = some c → c.handle = s.handle v → (x.stability.get c.pos).result ≠ none := by
    rw [any_eq_false]
    exact forall₂_congr fun c _ => awaited_eq_false
  unfold State.earlyDone
  rw [Bool.and_eq_true, Bool.and_eq_true, Bool.and_eq_true, Bool.and_eq_true, Bool.not_eq_true', Bool.not_eq_true',
    beq_iff_eq, drops, seen, waiting, flying]
  constructor
  · rintro ⟨⟨⟨⟨isOpen, drops, enough⟩, seen⟩, waiting⟩, flying⟩
    exact ⟨isOpen, drops, enough, seen, waiting, flying⟩
  · rintro ⟨isOpen, drops, enough, seen, waiting, flying⟩
    exact ⟨⟨⟨⟨isOpen, drops, enough⟩, seen⟩, waiting⟩, flying⟩

theorem earlyTest_of_closes (here : s.visit v = some x) (closes : s.ClosesEarly n v x) : s.earlyTest n v
    = (s.putVisit v { x with grading := .closed }).putGrade n s.grader.lanes[n].emptied := by
  unfold State.earlyTest
  rw [here]
  dsimp only
  rw [if_pos (earlyDone_iff.2 closes), closeGrading_eq here]

theorem earlyTest_of_open (here : s.visit v = some x) (open_ : ¬ s.ClosesEarly n v x) : s.earlyTest n v = s := by
  unfold State.earlyTest
  rw [here]
  dsimp only
  rw [if_neg (mt earlyDone_iff.1 open_)]

/-! ### The end of CHECKING touches no engine, no grader and no request (R76) -/

theorem endOfChecking_frame (resident : s.Resident n v x) : s.endOfChecking n v = { s with
    link := { s.link with changes := (s.endOfChecking n v).link.changes }
    book := (s.endOfChecking n v).book
    ring := (s.endOfChecking n v).ring
    lanes := (s.endOfChecking n v).lanes
    visits := (s.endOfChecking n v).visits
    yard := (s.endOfChecking n v).yard
    signs := (s.endOfChecking n v).signs } := by
  cases clean : (x.judge s.book s.check).isClean with
  | false =>
    rw [endOfChecking_of_unclean resident.2 clean]
  | true =>
    have is := endOfChecking_of_clean (n := n) resident.2 clean
    dsimp only at is
    generalize s.admitLegs (s.handle v) (x.judge s.book s.check).legs = admitted at is
    have seated : State.Resident { s with
        book := admitted.book
        ring := admitted.ring
        visits := s.visits.set v { s.visits[v] with visit := some { x.judge s.book s.check with
          legs := (x.judge s.book s.check).legs.map fun l => { l with disposition := .yard }
          source := some .auto
          outcome := some .admission } } } n v { x.judge s.book s.check with
        legs := (x.judge s.book s.check).legs.map fun l => { l with disposition := .yard }
        source := some .auto
        outcome := some .admission } := ⟨resident.1, putVisit_visit s v _⟩
    obtain ⟨z, frame, -⟩ := allocate_spec seated
    rw [← is] at frame
    generalize s.endOfChecking n v = t at frame
    rw [frame]

theorem endOfChecking_engine (resident : s.Resident n v x) :
    (s.endOfChecking n v).engine = s.engine ∧ (s.endOfChecking n v).link.exec = s.link.exec := by
  have frame := endOfChecking_frame resident
  generalize s.endOfChecking n v = t at frame
  rw [frame]
  exact ⟨rfl, rfl⟩

/-! ### The completion of an identification (R91, R93) -/

theorem not_resident_iff {st : VisitState} : st.isResident = false ↔ st = .enRoute ∨ st = .rejected := by
  cases st <;> decide

theorem identify_of_gone {op : Ident} (gone : ∀ x, s.named op.handle = some x → x.state = .enRoute ∨ x.state = .rejected) :
    s.identify op = s := by
  unfold State.identify
  split
  · rfl
  · next x named => rw [if_neg (by rw [not_resident_iff.2 (gone x named)]; exact Bool.false_ne_true)]

theorem identify_of_named {op : Ident} (named : s.named op.handle = some x) (resident : x.state.isResident = true) :
    s.identify op = (State.earlyTest (State.putVisit { s with
        book := (s.formLegs op.handle x.arrival op.refs).1.book
        ring := (s.formLegs op.handle x.arrival op.refs).1.ring } op.handle.slot
      (x.identified (s.formLegs op.handle x.arrival op.refs).2)) x.lane op.handle.slot).identificationTold x.lane
        op.handle.slot := by
  have moves := formLegs_moves (s := s) (t := s) rfl rfl op.handle x.arrival op.refs
  unfold State.identify
  rw [named]
  dsimp only
  rw [if_pos resident]
  generalize s.formLegs op.handle x.arrival op.refs = formed at moves
  obtain ⟨t, legs⟩ := formed
  have state : t = { s with book := t.book, ring := t.ring } := congrArg Prod.fst moves
  have here : t.visit op.handle.slot = some x := by
    rw [state]
    exact (named_eq_some.1 named).2
  dsimp only
  rw [modVisit_put here, state]

section
variable (here : s.visit v = some x)
include here

theorem identificationTold_of_checking (state : x.state = .checking) : s.identificationTold n v =
    State.testChecking (s.putLane n { s.lane n with
      dwell := if (s.lane n).dwell.limit = .card then .stopped else (s.lane n).dwell }) n := by
  unfold State.identificationTold
  rw [here]
  dsimp only
  rw [if_neg (fun held => by rw [state] at held; cases held.1), if_pos state]
  refine congrArg (fun u => State.testChecking u n) ?_
  split
  · rfl
  · exact (putLane_self s n).symm

theorem identificationTold_of_overdue (state : x.state = .held) (due : x.timeoutDue = true) :
    s.identificationTold n v = s.turnAway n v .auto .holdTimeout := by
  unfold State.identificationTold
  rw [here]
  exact if_pos ⟨state, due⟩

theorem identificationTold_of_other (state : x.state ≠ .checking) (due : ¬ (x.state = .held ∧ x.timeoutDue = true)) :
    s.identificationTold n v = s := by
  unfold State.identificationTold
  rw [here]
  dsimp only
  rw [if_neg due, if_neg state]

end

theorem exec_identificationComplete {op : Ident} (power : s.prst = false) (flight : s.engine.inFlight = some (.lane n op)) :
    exec .identificationComplete s = .next ((s.engineFree.identify op).grant).startJobs := by
  simp only [exec, execIdentificationComplete, flight, live_on power]

/-- No engine asks for a grant where no lane waits and the host's request is not a booking request (R9). -/
theorem grant_of_quiet (waiting : ∀ m : Lane, s.engine.waiting[m] = none)
    (request : ∀ e req, s.link.exec = some e → e.work ≠ .booking req) (engine : w.engine.waiting = s.engine.waiting)
    (link : w.link.exec = s.link.exec) : w.grant = w := by
  refine grant_eq_self ?_ fun m => by rw [engine]; exact waiting m
  cases booking : w.link.booking with
  | none => rfl
  | some p =>
    obtain ⟨exec, work⟩ := booking_eq_some.1 booking
    exact absurd work (request p.1 p.2 (link ▸ exec))

theorem identified_eq (x : Visit) (legs : List Leg) : x.identified legs =
    let drop : Kind → Bool := fun k => k == .exportFull || k == .emptyReturn
    let teu (p : Kind → Bool) : Nat := ((legs.filter fun l => l.kind.any p).map fun l => l.teu.getD 0).sum
    { x with
      legs := legs
      card := .done
      reasons := { x.reasons with
        cardUnreadable := x.reasons.cardUnreadable || x.unreadable
        teuLimit := x.reasons.teuLimit || decide (2 < teu drop ∨ 2 < teu fun k => !drop k) }
      dropLegs := some (legs.countP fun l => l.kind.any drop) } := by
  have drop : Kind.isDrop = fun k => k == .exportFull || k == .emptyReturn := by
    funext k
    cases k <;> rfl
  simp only [Visit.identified, overTeu, dropCount, teuSum, drop, Bool.decide_or]

end Sys2Proof.Machine

open Sys2Proof Sys2Proof.Machine in
/-- Settles O36. -/
theorem identificationFormsTheLegsOfItsVisit : Obligations.IdentificationFormsTheLegsOfItsVisit := by
  intro s n op power flight waiting request freed becomes
  have run := exec_identificationComplete power flight
  have ends {w : State} (is : freed.identify op = w) (engine : w.engine.waiting = s.engine.waiting)
      (link : w.link.exec = s.link.exec) : becomes w := by
    refine becomes_of_startJobs (run.trans ?_)
    rw [← grant_of_quiet waiting request engine link, ← is]
    rfl
  clear_value becomes
  refine ⟨fun gone => ends (identify_of_gone gone) rfl rfl, fun x named notGone notRejected => ?_⟩
  intro v formed legs teu drop told store base
  refine ⟨formLegs_refs s op.handle x.arrival op.refs, fun y lanes early => ?_⟩
  intro u stopped
  have resident : x.state.isResident = true :=
    Bool.not_eq_false _ ▸ fun is => (not_resident_iff.1 is).elim notGone notRejected
  have told_is : told = x.identified legs := (identified_eq x legs).symm
  have identified : freed.identify op = (base.earlyTest x.lane v).identificationTold x.lane v := by
    have moves := formLegs_moves (s := s) (t := freed) rfl rfl op.handle x.arrival op.refs
    rw [identify_of_named (s := freed) named resident, moves, ← told_is]
    rfl
  have there : base.visit v = some told := putVisit_visit s v told
  have tested : base.earlyTest x.lane v = u := by
    rcases early with ⟨closes, rfl, rfl⟩ | ⟨open_, rfl, rfl⟩
    · rw [earlyTest_of_closes there closes]
      have visits := visits_set_set (s := s) (v := v) { told with grading := .closed } told
      exact congrArg (fun visits => ({ u with visits := visits } : State)) visits
    · exact earlyTest_of_open there open_
  have kept : y.state = x.state ∧ y.timeoutDue = x.timeoutDue ∧ y.legs = legs := by
    rcases early with ⟨-, rfl, -⟩ | ⟨-, rfl, -⟩ <;> exact ⟨rfl, rfl, rfl⟩
  obtain ⟨state, timeout, yLegs⟩ := kept
  have here : u.visit v = some y := putVisit_visit s v y
  rw [tested] at identified
  refine ⟨fun other due => ?_, fun checking seated => ?_, fun held due => ?_⟩
  · refine ends (identified.trans (identificationTold_of_other here (by rwa [state]) (by rwa [state, timeout]))) rfl rfl
  · have lane : (stopped.lane x.lane).resident = (s.lane x.lane).resident := by simp [stopped, State.lane]
    have at_ : stopped.Resident x.lane v y := ⟨lane.trans seated.1, here⟩
    have is : u.identificationTold x.lane v = stopped.testChecking x.lane :=
      identificationTold_of_checking here (state.trans checking)
    rw [is] at identified
    refine ⟨fun closes => ?_, fun open_ => ?_⟩
    · rw [testChecking_of_ends at_ (state.trans checking) closes] at identified
      obtain ⟨engine, exec⟩ := endOfChecking_engine at_
      have waits := congrArg Engine.waiting engine
      exact ends identified waits exec
    · rw [testChecking_of_open at_ (state.trans checking) open_] at identified
      exact ends identified rfl rfl
  · have handle : u.handle v = op.handle := (putVisit_handle s v v y).trans (named_eq_some.1 named).1
    rw [identificationTold_of_overdue here (state.trans held) (timeout.trans due), turnAway_eq here, handle, yLegs]
      at identified
    refine ends (identified.trans ?_) rfl rfl
    generalize (u.reverted op.handle legs).book = book
    generalize (u.reverted op.handle legs).ring = ring
    have visits := visits_set_set (s := s) (v := v) { y with
      legs := legs.map fun l => { l with disposition := .dropped, dest := none }
      source := some .auto
      outcome := some .holdTimeout
      state := .releasing
      holdStart := none
      timeoutDue := false } y
    exact congrArg (fun visits => ({ u with
      book := book
      ring := ring
      lanes := s.lanes.set x.lane ((s.lane x.lane).lettingOut s.loops[x.lane].exit)
      visits := visits
      signs := s.signs.set x.lane { s.sign x.lane with printDue := false } } : State)) visits
end

section
/-!
PROOFS. The completion of a scan (R123, R125, R133 to R135, R75).
-/

namespace Sys2Proof.Machine

variable {s t u w : State} {n m : Lane} {v k : Fin 64} {x y z : Visit} {c : Scan}

/-! ### What the end of CHECKING leaves of the lanes and the visits (R76) -/

theorem not_checking_of_allocated (is : Allocated s x z) : z.state ≠ .checking := by
  cases is <;> simp

/-- The visit of an end of CHECKING is no longer in it; every other visit, and what is resident where, stays. -/
theorem endOfChecking_spec (resident : s.Resident n v x) : ∃ z, z.state ≠ .checking
    ∧ (s.endOfChecking n v).visits = s.visits.set v { s.visits[v] with visit := some z }
    ∧ ∀ m, ((s.endOfChecking n v).lane m).resident = (s.lane m).resident := by
  cases clean : (x.judge s.book s.check).isClean with
  | false =>
    rw [endOfChecking_of_unclean resident.2 clean]
    exact ⟨_, VisitState.noConfusion, rfl, residents_of_set rfl rfl⟩
  | true =>
    have is := endOfChecking_of_clean (n := n) resident.2 clean
    dsimp only at is
    generalize s.admitLegs (s.handle v) (x.judge s.book s.check).legs = admitted at is
    have seated : State.Resident { s with
        book := admitted.book
        ring := admitted.ring
        visits := s.visits.set v { s.visits[v] with visit := some { x.judge s.book s.check with
          legs := (x.judge s.book s.check).legs.map fun l => { l with disposition := .yard }
          source := some .auto
          outcome := some .admission } } } n v { x.judge s.book s.check with
        legs := (x.judge s.book s.check).legs.map fun l => { l with disposition := .yard }
        source := some .auto
        outcome := some .admission } := ⟨resident.1, putVisit_visit s v _⟩
    obtain ⟨z, -, visits, allocated, -, residents⟩ := allocate_spec seated
    rw [← is] at visits residents
    exact ⟨z, not_checking_of_allocated allocated, visits.trans (visits_set_set z _), residents⟩

/-- No visit of the lane is in CHECKING with the three conditions of R75. -/
def State.Stays (s : State) (n : Lane) : Prop := ∀ v x, s.Resident n v x → x.state = .checking → ¬ x.CheckingEnds

theorem testChecking_of_stays (stays : s.Stays n) : s.testChecking n = s := by
  unfold State.testChecking
  split
  · next v x found =>
    obtain ⟨resident, state⟩ := residentIn_eq_some.1 found
    exact if_neg (mt checkingDone_iff.1 (stays v x resident state))
  · rfl

/-- A lane whose resident visit is another, or is one that is not in CHECKING with the conditions of R75. -/
theorem Stays.of_set (stays : s.Stays n ∨ (s.lane n).resident = some v) (set : t.visits = s.visits.set v { s.visits[v] with visit := some z })
    (residents : (t.lane n).resident = (s.lane n).resident)
    (here : (s.lane n).resident = some v → z.state = .checking → ¬ z.CheckingEnds) : t.Stays n := by
  intro k y ⟨seat, there⟩ checking
  rw [residents] at seat
  by_cases same : k = v
  · subst same
    cases (visit_set_same set).symm.trans there
    exact here seat checking
  · rcases stays with stays | other
    · exact stays k y ⟨seat, (visit_set_other set same).symm.trans there⟩ checking
    · exact absurd (Option.some_inj.1 (seat.symm.trans other)) same

/-! ### The gradings that a completion closes (R135) -/

theorem emptied_of_empty {g : GradeLane} (empty : g.pending = none) : g.emptied = g := by
  simp only [GradeLane.emptied, empty]

theorem closeClosing_of_other (other : ∀ x, s.visit v = some x → x.lane = n → x.grading ≠ .closing) :
    closeClosing n s v = s := by
  unfold closeClosing
  split
  · rfl
  · next x here => exact if_neg fun is => other x here is.1 is.2

/-- A visit whose grading closes with its forced results (R135, R136). -/
def Visit.forcedClosed (x : Visit) : Visit :=
  { x with grading := .closed, stability := ⟨x.stability.one.force, x.stability.two.force⟩ }

theorem closeClosing_of_closing (here : s.visit v = some x) (lane : x.lane = n) (closing : x.grading = .closing)
    (empty : s.grader.lanes[n].pending = none) : closeClosing n s v = s.putVisit v x.forcedClosed := by
  unfold closeClosing
  rw [here]
  dsimp only
  have grade : (s.putVisit v x.force).grader.lanes[n].emptied = (s.putVisit v x.force).grader.lanes[n] :=
    emptied_of_empty empty
  rw [if_pos ⟨lane, closing⟩, modVisit_put here, closeGrading_eq (putVisit_visit s v x.force), putVisit_putVisit, grade]
  exact putGrade_self _ n

theorem closeAllClosing_of_none (none_ : ∀ v x, s.visit v = some x → x.lane = n → x.grading ≠ .closing) :
    s.closeAllClosing n = s := by
  have all (l : List (Fin 64)) : l.foldl (closeClosing n) s = s := by
    induction l with
    | nil => rfl
    | cons v l ih => rw [List.foldl_cons, closeClosing_of_other (none_ v), ih]
  exact all _

theorem closeAllClosing_of_one (here : s.visit v = some x) (lane : x.lane = n) (closing : x.grading = .closing)
    (only : ∀ k y, s.visit k = some y → y.lane = n → y.grading = .closing → k = v)
    (empty : s.grader.lanes[n].pending = none) : s.closeAllClosing n = s.putVisit v x.forcedClosed := by
  have closes := closeClosing_of_closing here lane closing empty
  have before (k : Fin 64) (other : k ≠ v) : closeClosing n s k = s :=
    closeClosing_of_other fun y there lane closing => other (only k y there lane closing)
  have after (k : Fin 64) : closeClosing n (s.putVisit v x.forcedClosed) k = s.putVisit v x.forcedClosed := by
    refine closeClosing_of_other fun y there lane closing => ?_
    by_cases other : k = v
    · subst other
      cases (putVisit_visit s k x.forcedClosed).symm.trans there
      cases closing
    · exact other (only k y ((putVisit_visit_other other _).symm.trans there) lane closing)
  have done (l : List (Fin 64)) : l.foldl (closeClosing n) (s.putVisit v x.forcedClosed) = s.putVisit v x.forcedClosed := by
    induction l with
    | nil => rfl
    | cons k l ih => rw [List.foldl_cons, after, ih]
  have all (l : List (Fin 64)) (mem : v ∈ l) : l.foldl (closeClosing n) s = s.putVisit v x.forcedClosed := by
    induction l with
    | nil => cases mem
    | cons k l ih =>
      rw [List.foldl_cons]
      by_cases same : k = v
      · rw [same, closes, done]
      · rw [before k same, ih ((List.mem_cons.1 mem).resolve_left fun is => same is.symm)]
  exact all _ (List.mem_finRange v)

/-! ### The scan that is applied, and the early completion that may follow (R125, R134) -/

theorem applyScan_of_gone (gone : ∀ x, s.named c.handle = some x → x.state = .enRoute ∨ x.state = .rejected) (n : Lane) :
    s.applyScan n c = s := by
  unfold State.applyScan
  split
  · rfl
  · next x named => rw [if_neg (by rw [not_resident_iff.2 (gone x named)]; exact Bool.false_ne_true)]

theorem applyScan_of_closed (named : s.named c.handle = some x) (resident : x.state.isResident = true)
    (closed : x.grading = .closed) (n : Lane) : s.applyScan n c = s.putGrade n { s.grader.lanes[n] with
      late := min 65535 (s.grader.lanes[n].late + 1) } := by
  unfold State.applyScan
  rw [named]
  dsimp only
  rw [if_pos resident, if_pos closed]
  simp only [State.modGrade, GradeLane.countLate, satSucc_eq]
  rfl

theorem applyScan_of_open (named : s.named c.handle = some x) (resident : x.state.isResident = true)
    (open_ : x.grading ≠ .closed) (n : Lane) :
    s.applyScan n c = s.putVisit c.handle.slot (x.applyScan s.grader.params c) := by
  unfold State.applyScan
  rw [named]
  dsimp only
  rw [if_pos resident, if_neg open_, modVisit_put (named_eq_some.1 named).2]

theorem earlyTestOf_of_not {h : Handle}
    (not_ : ∀ x, s.named h = some x → x.state.isResident = true → ¬ s.ClosesEarly x.lane h.slot x) : s.earlyTestOf h = s := by
  unfold State.earlyTestOf
  split
  · next x named =>
    refine if_neg fun both => ?_
    obtain ⟨resident, early⟩ := Bool.and_eq_true_iff.1 both
    exact not_ x named resident (earlyDone_iff.1 early)
  · rfl

theorem earlyTestOf_of_closes {h : Handle} (named : s.named h = some x) (resident : x.state.isResident = true)
    (closes : s.ClosesEarly x.lane h.slot x) (empty : s.grader.lanes[x.lane].pending = none) :
    s.earlyTestOf h = (s.putVisit h.slot { x with grading := .closed }).testChecking x.lane := by
  unfold State.earlyTestOf
  rw [named]
  dsimp only
  rw [if_pos (Bool.and_eq_true_iff.2 ⟨resident, earlyDone_iff.2 closes⟩), closeGrading_eq (named_eq_some.1 named).2,
    emptied_of_empty empty]
  exact congrArg (fun u => State.testChecking u x.lane) (putGrade_self (s.putVisit h.slot { x with grading := .closed }) x.lane)

theorem exec_gradingCompletion (power : s.prst = false) (flight : s.grader.inFlight = some (n, c)) :
    exec .gradingCompletion s = .next ((((((State.applyScan { s with grader := { s.grader with inFlight := none } } n
      c).closeAllClosing n).earlyTestOf c.handle).testChecking n).gradingTake).startJobs) := by
  simp only [exec, execGradingCompletion, flight, live_on power, State.gradingCompletes]

/-- The test that ends CHECKING, as its visit stands (R75). -/
theorem testChecking_of_resident (resident : s.Resident n v x) : (x.state = .checking ∧ x.CheckingEnds)
    ∧ s.testChecking n = s.endOfChecking n v ∨ ¬ (x.state = .checking ∧ x.CheckingEnds) ∧ s.testChecking n = s := by
  by_cases both : x.state = .checking ∧ x.CheckingEnds
  · exact .inl ⟨both, testChecking_of_ends resident both.1 both.2⟩
  · refine .inr ⟨both, testChecking_of_stays fun k y there checking ends => ?_⟩
    obtain rfl : k = v := Option.some_inj.1 (there.1.symm.trans resident.1)
    cases there.2.symm.trans resident.2
    exact both ⟨checking, ends⟩

theorem endOfChecking_grader (resident : s.Resident n v x) : (s.endOfChecking n v).grader = s.grader := by
  have frame := endOfChecking_frame resident
  generalize s.endOfChecking n v = t at frame
  rw [frame]

theorem pending_putGrade {g : GradeLane} (empty : ∀ m : Lane, s.grader.lanes[m].pending = none) (is : g.pending = none)
    (m : Lane) : (s.putGrade n g).grader.lanes[m].pending = none := by
  by_cases same : m = n
  · subst same
    simpa [State.putGrade] using is
  · simpa [State.putGrade, Vector.getElem_set, Fin.val_inj, Ne.symm same] using empty m

/-- What a handle names after the visit of a slot was replaced. -/
theorem named_putVisit {h : Handle} (here : s.visit v = some x) (named : (s.putVisit v y).named h = some z) :
    h.slot = v ∧ z = y ∧ s.named h = some x ∨ h.slot ≠ v ∧ s.named h = some z := by
  obtain ⟨handle, there⟩ := named_eq_some.1 named
  rw [putVisit_handle] at handle
  by_cases same : h.slot = v
  · subst same
    cases (putVisit_visit s h.slot y).symm.trans there
    exact .inl ⟨rfl, rfl, named_eq_some.2 ⟨handle, here⟩⟩
  · exact .inr ⟨same, named_eq_some.2 ⟨handle, (putVisit_visit_other same y).symm.trans there⟩⟩

theorem named_putVisit_slot {h : Handle} (named : s.named h = some x) (y : Visit) :
    (s.putVisit h.slot y).named h = some y :=
  named_eq_some.2 ⟨(putVisit_handle s h.slot h.slot y).trans (named_eq_some.1 named).1, putVisit_visit s h.slot y⟩

end Sys2Proof.Machine

open Sys2Proof Sys2Proof.Machine in
/-- Settles O41. -/
theorem gradingCompletionAppliesTheScan : Obligations.GradingCompletionAppliesTheScan := by
  intro s n c power flight pending v freed store becomes stays noneCloses oneCloses gone force tested
  have run := exec_gradingCompletion power flight
  have ends {w : State} (is : (((State.applyScan (freed s.grader.lanes) n c).closeAllClosing n).earlyTestOf
      c.handle).testChecking n = w) (empty : ∀ m : Lane, w.grader.lanes[m].pending = none) : becomes w := by
    refine becomes_of_startJobs (run.trans ?_)
    change Host.Outcome.next (State.startJobs (State.gradingTake ((((State.applyScan (freed s.grader.lanes) n
      c).closeAllClosing n).earlyTestOf c.handle).testChecking n))) = _
    rw [is, gradingTake_of_empty empty]
  clear_value becomes
  generalize is_e : freed s.grader.lanes = e at ends
  have visit (k : Fin 64) : e.visit k = s.visit k := by rw [← is_e]; rfl
  have named : e.named c.handle = s.named c.handle := by rw [← is_e]; rfl
  have lane (m : Lane) : e.lane m = s.lane m := by rw [← is_e]; rfl
  have isStore (w : Fin 64) (y : Visit) : store w y = e.putVisit w y := by rw [← is_e]; rfl
  have grades : e.grader.lanes = s.grader.lanes := by rw [← is_e]
  have params : e.grader.params = s.grader.params := by rw [← is_e]
  have empty (m : Lane) : e.grader.lanes[m].pending = none := by rw [grades]; exact pending m
  have eStays (st : stays) : e.Stays n := fun w y ⟨seat, there⟩ => st w y ⟨lane n ▸ seat, visit w ▸ there⟩
  have seats {m : Lane} {w : Fin 64} {x : Visit} (y : Visit) (resident : s.Resident m w x) : (e.putVisit w y).Resident m w y :=
    ⟨(congrArg LaneUnit.resident (lane m)).trans resident.1, putVisit_visit e w y⟩
  have eNone (none_ : noneCloses) : e.closeAllClosing n = e :=
    closeAllClosing_of_none fun k y there => none_ k y (visit k ▸ there)
  have eOne {w : Fin 64} {x : Visit} (one : oneCloses w) (here : s.visit w = some x) (at_ : x.lane = n)
      (closing : x.grading = .closing) : e.closeAllClosing n = e.putVisit w (force x) :=
    closeAllClosing_of_one ((visit w).trans here) at_ closing (fun k y there => one k y (visit k ▸ there)) (empty n)
  have tests {w : Fin 64} {x y : Visit} (resident : s.Resident n w x)
      (is : ((e.applyScan n c).closeAllClosing n).earlyTestOf c.handle = e.putVisit w y) : tested n w y := by
    have seated := seats y resident
    rcases testChecking_of_resident seated with ⟨both, result⟩ | ⟨not_, result⟩
    · refine ⟨fun _ _ => ?_, fun not_ => absurd both not_⟩
      rw [isStore]
      exact ends (by rw [is, result]) fun m => by rw [endOfChecking_grader seated]; exact empty m
    · refine ⟨fun checking closes => absurd ⟨checking, closes⟩ not_, fun _ => ?_⟩
      rw [isStore]
      exact ends (by rw [is, result]) empty
  have goneNot (u : State) (st : ∀ x, u.named c.handle = some x → x.state = .enRoute ∨ x.state = .rejected) :
      u.earlyTestOf c.handle = u :=
    earlyTestOf_of_not fun x there resident => by rw [not_resident_iff.2 (st x there)] at resident; cases resident
  refine ⟨fun away none_ st => ?_, fun w x away one resident at_ closing => ?_,
    fun w x away one here at_ closing other st => ?_, fun x there notGone notRejected => ?_⟩
  · refine ends ?_ empty
    rw [applyScan_of_gone (named ▸ away), eNone none_, goneNot e (named ▸ away), testChecking_of_stays (eStays st)]
  · refine tests resident ?_
    rw [applyScan_of_gone (named ▸ away), eOne one resident.2 at_ closing]
    refine goneNot _ fun z there => ?_
    rcases named_putVisit ((visit w).trans resident.2) there with ⟨-, rfl, before⟩ | ⟨-, before⟩
    · exact away x (named ▸ before)
    · exact away z (named ▸ before)
  · rw [isStore]
    refine ends ?_ empty
    rw [applyScan_of_gone (named ▸ away), eOne one here at_ closing, goneNot, testChecking_of_stays]
    · exact Stays.of_set (s := e) (.inl (eStays st)) rfl rfl fun _ checking => absurd checking other
    · intro z there
      rcases named_putVisit ((visit w).trans here) there with ⟨-, rfl, before⟩ | ⟨-, before⟩
      · exact away x (named ▸ before)
      · exact away z (named ▸ before)
  · intro applied
    have resident : x.state.isResident = true :=
      Bool.not_eq_false _ ▸ fun is => (not_resident_iff.1 is).elim notGone notRejected
    have eNamed : e.named c.handle = some x := named.trans there
    have isApplied : x.applyScan e.grader.params c = applied := by rw [params]; rfl
    have applies (open_ : x.grading ≠ .closed) : e.applyScan n c = e.putVisit v applied := by
      rw [applyScan_of_open eNamed resident open_, isApplied]
    refine ⟨fun closed none_ st => ?_, fun open_ none_ seated lanes => ?_, fun closing at_ one seated => ?_⟩
    · have late : freed (s.grader.lanes.set n { s.grader.lanes[n] with late := min 65535 (s.grader.lanes[n].late + 1) })
          = e.putGrade n { e.grader.lanes[n] with late := min 65535 (e.grader.lanes[n].late + 1) } := by
        rw [← is_e]
        rfl
      rw [late]
      refine ends ?_ fun m => ?_
      · rw [applyScan_of_closed eNamed resident closed, closeAllClosing_of_none, earlyTestOf_of_not, testChecking_of_stays]
        · exact eStays st
        · intro z there _ early
          cases eNamed.symm.trans there
          cases closed.symm.trans early.isOpen
        · exact fun k y there => none_ k y (visit k ▸ there)
      · refine pending_putGrade empty ?_ m
        exact empty n
    · have quiet : (e.putVisit v applied).closeAllClosing n = e.putVisit v applied := by
        refine closeAllClosing_of_none fun k y there => ?_
        by_cases same : k = v
        · subst same
          cases (putVisit_visit e v applied).symm.trans there
          exact fun _ closing => by cases open_.symm.trans closing
        · exact none_ k y (visit k ▸ (putVisit_visit_other same applied).symm.trans there)
      have named' : (e.putVisit v applied).named c.handle = some applied := named_putVisit_slot eNamed applied
      have same : store v applied = e.putVisit v applied := isStore v applied
      have other (y : Visit) (apart : x.lane ≠ n) : (e.putVisit v y).Stays n := by
        obtain ⟨st, seat⟩ := lanes.resolve_left apart
        exact Stays.of_set (s := e) (.inl (eStays st)) rfl rfl fun here => absurd (lane n ▸ here) seat
      rw [same]
      refine ⟨fun closes => ?_, fun open' at_ => ?_, fun open' apart => ?_⟩
      · let y : Visit := { applied with grading := .closed }
        have seated' := seats y seated
        have early : ((e.applyScan n c).closeAllClosing n).earlyTestOf c.handle = (e.putVisit v y).testChecking x.lane := by
          rw [applies (by rw [open_]; exact nofun), quiet, earlyTestOf_of_closes named' resident closes (empty x.lane)]
          exact congrArg (fun u => State.testChecking u x.lane) (putVisit_putVisit e v applied y)
        rcases testChecking_of_resident seated' with ⟨both, result⟩ | ⟨not_, result⟩
        · refine ⟨fun _ _ => ?_, fun not_ => absurd both not_⟩
          rw [isStore]
          refine ends ?_ fun m => by rw [endOfChecking_grader seated']; exact empty m
          obtain ⟨z, done, visits, residents⟩ := endOfChecking_spec seated'
          rw [early, result]
          refine testChecking_of_stays (Stays.of_set (s := e.putVisit v y) ?_ visits (residents n) fun _ is => absurd is done)
          by_cases at_ : x.lane = n
          · exact .inr (at_ ▸ seated'.1)
          · exact .inl (other y at_)
        · refine ⟨fun checking ends' => absurd ⟨checking, ends'⟩ not_, fun _ => ?_⟩
          rw [isStore]
          refine ends ?_ empty
          rw [early, result]
          by_cases at_ : x.lane = n
          · rw [← at_]
            exact result
          · exact testChecking_of_stays (other y at_)
      · subst at_
        refine tests seated ?_
        rw [applies (by rw [open_]; exact nofun), quiet, earlyTestOf_of_not]
        intro z there _
        cases named'.symm.trans there
        exact open'
      · refine ends ?_ empty
        rw [applies (by rw [open_]; exact nofun), quiet, earlyTestOf_of_not, testChecking_of_stays (other applied apart)]
        intro z there _
        cases named'.symm.trans there
        exact open'
    · refine tests seated ?_
      have here : (e.putVisit v applied).visit v = some applied := putVisit_visit e v applied
      rw [applies (by rw [closing]; exact nofun), closeAllClosing_of_one here at_ closing, putVisit_putVisit,
        earlyTestOf_of_not]
      · rfl
      · intro z there _ early
        rcases named_putVisit (x := x) (named_eq_some.1 eNamed).2 there with ⟨-, rfl, -⟩ | ⟨apart, -⟩
        · cases early.isOpen
        · exact apart rfl
      · intro k y there at_ closing
        by_cases same : k = v
        · exact same
        · exact one k y (visit k ▸ (putVisit_visit_other same applied).symm.trans there) at_ closing
      · exact empty n
end

section
/-!
PROOFS. The requests on a visit: VISIT_QUERY (R86), VISIT_CLOSE (R87) and VISIT_DECIDE (R152 to R156).
-/

namespace Sys2Proof.Machine

variable {s t u w : State} {f : ReqFrame} {rest : List ReqFrame} {n : Lane} {v : Fin 64} {x y z : Visit}

/-! ### The handle of an open visit (R61) -/

theorem checkHandle_of_open (here : s.visit v = some x) :
    s.checkHandle (v.val, s.visits[v].gen.val) = .ok (v, x) := by
  simp [State.checkHandle, here]

theorem onVisit_of_open (here : s.visit v = some x) (serve : Fin 64 → Visit → Answer) :
    onVisit (v.val, s.visits[v].gen.val) s serve = serve v x := by
  simp only [onVisit, checkHandle_of_open here]

theorem decodeAll_dHandle (h : Handle) : decodeAll dHandle (e1 h.slot.val ++ e1 h.gen.val) = some (h.slot.val, h.gen.val) := by
  refine decodeAll_of_run_nil ?_
  rw [List.append_assoc]
  exact run_dHandle _ _ _ (by omega) (by omega)

/-! ### VISIT_QUERY (R86, R104, R119, R142, R157) -/

theorem eFaces_eq (g : Faces Grade) :
    eFaces g = e1 g.left.code ++ e1 g.right.code ++ e1 g.front.code ++ e1 g.rear.code ++ e1 g.roof.code := by
  simp [eFaces, Faces.toList]

theorem eContainerEntry_eq (r : ReadEntry) :
    eContainerEntry r = eEntry r ++ if containerCheck r.text = .valid then [0x00#8] else [0x01#8] := by
  unfold eContainerEntry
  split <;> rfl

theorem eStability_eq (y : Stability) : eStability y = e1 y.scans ++ e1 y.run
    ++ eOpt (fun p : Nat × Faces Grade => e1 p.1 ++ eFaces p.2) y.previous
    ++ eOpt (fun q : Grade => e1 q.code) y.worst.left ++ eOpt (fun q : Grade => e1 q.code) y.worst.right
    ++ eOpt (fun q : Grade => e1 q.code) y.worst.front ++ eOpt (fun q : Grade => e1 q.code) y.worst.rear
    ++ eOpt (fun q : Grade => e1 q.code) y.worst.roof
    ++ eOpt (fun r : PosResult => e1 r.cls.code ++ eFaces r.faces ++ e1 r.basis.code ++ e1 r.size) y.result := by
  have result : ePosResult = fun r : PosResult => e1 r.cls.code ++ eFaces r.faces ++ e1 r.basis.code ++ e1 r.size := rfl
  simp [eStability, Faces.toList, result]

theorem eLaneOf_eq (s : State) (x : Visit) (e : LaneUnit → List Byte) :
    eOpt e (if x.state.isResident then some (s.lane x.lane) else none)
      = if x.state != .enRoute && x.state != .rejected then 0x01#8 :: e (s.lane x.lane) else [0x00#8] := by
  cases x.state <;> rfl

/-! ### VISIT_CLOSE (R60, R72, R87, R179) -/

theorem releaseBooking_ring (s : State) (l : Leg) (h : Handle) : (s.releaseBooking l h).ring = s.ring := by
  unfold State.releaseBooking
  split
  · rfl
  · split <;> rfl

theorem releaseBookings_actsOnBook (h : Handle) (legs : List Leg) :
    ActsOnBook fun s => legs.foldl (fun u l => u.releaseBooking l h) s :=
  ActsOnBook.foldl (f := fun u l => u.releaseBooking l h) (fun l => releaseBooking_actsOnBook l h) legs

theorem releaseBookings_ring (s : State) (h : Handle) (legs : List Leg) :
    (legs.foldl (fun u l => u.releaseBooking l h) s).ring = s.ring := by
  induction legs generalizing s with
  | nil => rfl
  | cons l legs ih => rw [List.foldl_cons, ih, releaseBooking_ring]

/-- The state with a visit closed and its slot free, its slot not handed on (R87). -/
def State.slotFreed (s : State) (v : Fin 64) (x : Visit) : State := { s with
  link := { s.link with changes := s.link.changes.filter (· != .visit v) }
  book := (x.legs.foldl (fun u l => u.releaseBooking l (s.handle v)) s).book
  freeCount := s.freeCount + 1
  visits := s.visits.set v ⟨s.visits[v].gen + 1, none⟩
  yard := s.yard.givenBack (s.handle v) x.legs }

/-- The state with a closed visit's slot handed on to a lane (R72). -/
def State.slotHanded (s : State) (v : Fin 64) (x : Visit) (n : Lane) : State := { s.slotFreed v x with
  lanes := s.lanes.set n { s.lane n with
    resident := some v
    entryCleared := false
    dwell := ⟨.oneShot, (s.lane n).limits.approach, .approach, 0⟩ }
  openWait := s.openWait.filter (· != n)
  freeCount := s.freeCount
  visits := s.visits.set v ⟨s.visits[v].gen + 1, some (.opened n s.time.minute)⟩ }

theorem closeVisit_eq (s : State) (v : Fin 64) (x : Visit) : s.closeVisit v x = (s.slotFreed v x).handOn v := by
  have acts := releaseBookings_actsOnBook (s.handle v) x.legs s { s with yard := s.yard.givenBack (s.handle v) x.legs } rfl rfl
  beta_reduce at acts
  unfold State.closeVisit
  dsimp only
  rw [releaseLegs_eq, acts, releaseBookings_ring]
  rfl

theorem closeVisit_of_none (none_ : s.openWait = []) : s.closeVisit v x = s.slotFreed v x := by
  have waits : (s.slotFreed v x).openWait = [] := none_
  rw [closeVisit_eq, State.handOn, waits]

theorem closeVisit_of_waiting {more : List Lane} (waits : s.openWait = n :: more) :
    s.closeVisit v x = s.slotHanded v x n := by
  have waits' : (s.slotFreed v x).openWait = n :: more := waits
  rw [closeVisit_eq, State.handOn, waits']
  simp [State.openVisit, State.slotHanded, State.slotFreed, State.modLane, State.loadDwell, Limits.get, State.lane]

/-- A closed visit's slot has its next generation, and its entry has left the change set, also after a retry (R60, R87). -/
theorem closed_after_retry {g : Fin 16} (gen : u.visits[v].gen = g)
    (left : u.link.changes.filter (· != .visit v) = u.link.changes) (b : Bool) :
    (u.retryIf b).startJobs.freeCount = u.freeCount ∧ ((u.retryIf b).startJobs.visits[v]).gen = g
      ∧ (u.retryIf b).startJobs.link.changes.filter (· != .visit v) = (u.retryIf b).startJobs.link.changes := by
  have retried : (u.retryIf b).freeCount = u.freeCount ∧ (u.retryIf b).visits[v].gen = u.visits[v].gen
      ∧ (u.retryIf b).link = u.link := by
    cases b with
    | false => exact ⟨rfl, rfl, rfl⟩
    | true =>
      have retries := retry_retries u
      have frame := retries.frame
      have gen := retries.gen v
      change u.retry.freeCount = u.freeCount ∧ u.retry.visits[v].gen = u.visits[v].gen ∧ u.retry.link = u.link
      generalize u.retry = t at frame gen
      exact ⟨by rw [frame], gen, by rw [frame]⟩
  obtain ⟨count, gens, link⟩ := retried
  have jobs := startJobs_eq (u.retryIf b)
  have link' := link_of_signs jobs
  have visits' := visits_of_signs jobs
  have count' : (u.retryIf b).startJobs.freeCount = (u.retryIf b).freeCount := by
    generalize (u.retryIf b).startJobs = t at jobs
    rw [jobs]
  refine ⟨count'.trans count, ?_, ?_⟩
  · rw [visits', gens, gen]
  · rw [link', link, left]

end Sys2Proof.Machine

open Sys2Proof Sys2Proof.Machine in
/-- Settles O42. -/
theorem visitQueryReportsAndVisitCloseFreesTheSlot : Obligations.VisitQueryReportsAndVisitCloseFreesTheSlot := by
  intro s f rest v x here fields number entry checked grades damage dest leg record resident ofLane timer outcome reads
    finding findings seals seen position grading
  have decoded : decodeAll dHandle f.fields = some (v.val, s.visits[v].gen.val) := by
    rw [fields]
    exact decodeAll_dHandle (s.handle v)
  have named (serve : Fin 64 → Visit → Answer) : onVisit (v.val, s.visits[v].gen.val) (s.taken rest) serve = serve v x :=
    onVisit_of_open (s := s.taken rest) here serve
  refine ⟨fun ready => ?query, fun ready notGone notRejected => ?busy, fun ready gone => ?close⟩
  case query =>
    refine live_takeRequest_of_serve (code := 0x28#8) ready decoded ?_
    rw [named]
    have isGrades : eFaces = grades := funext eFaces_eq
    have isDamage : eLegDamage = damage := by
      funext d
      simp only [eLegDamage, isGrades]
      rfl
    have isDest : eDest = dest := funext fun d => by cases d <;> rfl
    have isLeg : eLeg = leg := by
      funext l
      rcases bound : l.bound with _ | _ | _ <;> simp only [eLeg, leg, isDamage, isDest, bound] <;> rfl
    have isRecord : eVisit x = record := by
      simp only [eVisit, isLeg, eReasons, ← standing_eq]
      rfl
    have isTimer : eLaneOf (s.taken rest) x = timer := by
      simp only [eLaneOf, eLaneOf_eq]
      rfl
    have isChecked : eContainerEntry = checked := funext eContainerEntry_eq
    have isOutcome : ePosOutcome = outcome := funext fun o => by cases o <;> rfl
    have isReads : eReadSets x = reads := by
      simp only [eReadSets, isChecked, isOutcome]
      rfl
    have isFinding : eSealFinding = finding := funext fun ⟨t, o⟩ => by cases o <;> rfl
    have isFindings : eFindings = findings := by
      funext q
      simp only [eFindings, isFinding]
      rfl
    have isSeals : eSeals x = seals := by
      simp only [eSeals, eSealSet, isFindings, List.append_assoc]
      simp only [seals, List.append_assoc]
      rfl
    have isPosition : eStability = position := by
      funext y
      rw [eStability_eq, isGrades]
    have isGrading : eGrading x = grading := by
      simp only [eGrading, isPosition]
      rfl
    rw [eVisitQuery, isRecord, isTimer, isReads, isSeals, isGrading]
    rfl
  case busy =>
    refine live_takeRequest_of_serve (code := 0x2A#8) ready decoded ?_
    have resident : x.state.isResident = true :=
      Bool.not_eq_false _ ▸ fun is => (not_resident_iff.1 is).elim notGone notRejected
    rw [named, serveVisitClose, if_pos resident]
    rfl
  case close =>
    intro freed u w
    have book := (releaseBookings_actsOnBook (s.handle v) x.legs).book_eq (s := s) (t := s.taken rest) rfl rfl
    have isFreed : (s.taken rest).slotFreed v x = freed :=
      congrArg (fun book => ({ freed with book := book } : State)) book
    have unlisted : (s.link.changes.filter (· != .visit v)).filter (· != .visit v) = s.link.changes.filter (· != .visit v) := by
      rw [List.filter_filter]
      simp only [Bool.and_self]
    obtain ⟨closes, gen, left⟩ : (s.taken rest).closeVisit v x = u
        ∧ u.visits[v].gen = s.visits[v].gen + 1 ∧ u.link.changes.filter (· != .visit v) = u.link.changes := by
      cases waits : s.openWait with
      | nil =>
        have is : u = freed := by simp only [u, waits]
        rw [closeVisit_of_none (s := s.taken rest) waits, isFreed, is]
        exact ⟨rfl, by simp [freed], unlisted⟩
      | cons n more =>
        have is : u = (s.taken rest).slotHanded v x n := by
          have same : (s.taken rest).openWait = n :: more := waits
          simp only [u, waits, State.slotHanded, isFreed, same]
          rfl
        rw [closeVisit_of_waiting (s := s.taken rest) waits, is]
        exact ⟨rfl, by simp [State.slotHanded, State.taken], unlisted⟩
    have ends : w = u.retryIf (x.legs.any Leg.holdsPlace) := rfl
    clear_value w
    clear_value u
    subst ends
    have served : onVisit (v.val, s.visits[v].gen.val) (s.taken rest) (fun v x => serveVisitClose v x (s.taken rest))
        = accept (u.retryIf (x.legs.any Leg.holdsPlace)).startJobs [] := by
      rw [named, serveVisitClose, if_neg (by rw [not_resident_iff.2 gone]; exact Bool.false_ne_true), closes]
    obtain ⟨runs, frame, starts⟩ := ends_with_jobs (code := 0x2A#8)
      (serve := fun h t => onVisit h t fun v x => serveVisitClose v x t) ready decoded served
    exact ⟨_, runs, frame, starts, closed_after_retry gen left (x.legs.any Leg.holdsPlace)⟩
end

section
/-!
PROOFS. VISIT_DECIDE (R152 to R156).
-/

namespace Sys2Proof.Machine

variable {s t u w : State} {f : ReqFrame} {rest : List ReqFrame} {n : Lane} {v : Fin 64} {x y z : Visit} {cs : List Choice}
  {d : Decision}

/-! ### The fields of a decision (R152, R219) -/

/-- A choice as a host sends it. -/
def eChoice : Choice → List Byte
  | .yard => [0x00#8]
  | .inspect => [0x01#8]
  | .drop => [0x02#8]

theorem run_choice (c : Choice) (more : List Byte) :
    (dEnum [Choice.yard, .inspect, .drop]).run (eChoice c ++ more) = some (c, more) := by
  cases c with
  | yard => exact run_dEnum _ 0 _ more rfl (by decide)
  | inspect => exact run_dEnum _ 1 _ more rfl (by decide)
  | drop => exact run_dEnum _ 2 _ more rfl (by decide)

theorem decodeAll_turnAway (h : Handle) :
    decodeAll dDecide (e1 h.slot.val ++ e1 h.gen.val ++ [0x00#8]) = some ((h.slot.val, h.gen.val), .turnAway) := by
  refine decodeAll_of_run_nil ?_
  simp only [dDecide, List.append_assoc, run_bind, run_dHandle _ _ _ (Nat.lt_of_lt_of_le h.slot.isLt (by decide))
    (Nat.lt_of_lt_of_le h.gen.isLt (by decide)), Option.bind_some]
  rfl

/-- What a list of choices is taken as. -/
theorem run_choices (few : cs.length ≤ 2) : (dChoice (pure Decision.turnAway) (do
    let cs ← dList 2 (dEnum [Choice.yard, .inspect, .drop])
    return .list cs)).run (0x01#8 :: eList eChoice cs ++ []) = some (.list cs, []) := by
  have list : (dList 2 (dEnum [Choice.yard, .inspect, .drop])).run (eList eChoice cs ++ []) = some (cs.map id, []) :=
    run_dList_map few (by omega) (fun c _ more => run_choice c more) []
  rw [List.map_id] at list
  have first : d1.run (0x01#8 :: (eList eChoice cs ++ [])) = some (1, eList eChoice cs ++ []) := rfl
  unfold dChoice
  rw [List.cons_append, run_bind, first]
  simp only [Option.bind_some]
  rw [run_bind, list]
  rfl

theorem decodeAll_choices (h : Handle) (few : cs.length ≤ 2) :
    decodeAll dDecide (e1 h.slot.val ++ e1 h.gen.val ++ 0x01#8 :: eList eChoice cs)
      = some ((h.slot.val, h.gen.val), .list cs) := by
  refine decodeAll_of_run_nil ?_
  have choices := run_choices few
  rw [List.cons_append] at choices
  simp only [dDecide, List.append_assoc, run_bind, run_dHandle _ _ _ (Nat.lt_of_lt_of_le h.slot.isLt (by decide))
    (Nat.lt_of_lt_of_le h.gen.isLt (by decide)), Option.bind_some, List.cons_append, choices, run_pure]

/-! ### The checks (R152) -/

/-- A decision that drops every leg (R155, R156). -/
def Decision.Drops (x : Visit) (d : Decision) : Prop :=
  d = .turnAway ∨ (x.legs ≠ [] ∧ d = .list (List.replicate x.legs.length .drop))

theorem firstLeg_drop {test : Leg → Choice → Bool} (never : ∀ l, test l .drop = false) (legs : List Leg) (k : Nat) :
    firstLeg test legs (List.replicate k .drop) = none := by
  rw [firstLeg, Option.map_eq_none_iff, List.findIdx?_eq_none_iff]
  rintro ⟨l, c⟩ mem
  obtain rfl := List.eq_of_mem_replicate (List.of_mem_zip mem).2
  exact never l

theorem choiceCheck_drop (b : Book) (h : Handle) (legs : List Leg) (k : Nat) :
    choiceCheck b h legs (List.replicate k .drop) = none := by
  simp only [choiceCheck, firstLeg_drop (test := Leg.wrongChoice) (fun _ => rfl),
    firstLeg_drop (test := Leg.unheld b) (fun _ => rfl), firstLeg_drop (test := Leg.notOurs b h) (fun _ => rfl)]
  rfl

theorem serveDecide_misfit (misfit : cs.length ≠ x.legs.length ∨ x.legs = []) (v : Fin 64) (s : State) :
    serveDecide (.list cs) v x s = refuse s .badParam := by
  have test : (cs.length != x.legs.length || x.legs.isEmpty) = true := by
    simpa using misfit
  simp only [serveDecide, decideCheck, test, if_true]

theorem decideCheck_fits (length : cs.length = x.legs.length) (some_ : x.legs ≠ []) :
    decideCheck x (.list cs) = decideCheck x .turnAway := by
  have test : (cs.length != x.legs.length || x.legs.isEmpty) = false := by
    simp [length, some_]
  simp only [decideCheck, test]

theorem decideCheck_wrong (wrong : x.state ≠ .held ∨ x.card = .pending) : decideCheck x .turnAway = some .wrongState := by
  simp only [decideCheck, wrong, if_true]
  rfl

theorem decideCheck_held (held : x.state = .held) (card : x.card ≠ .pending) : decideCheck x .turnAway = none := by
  simp only [decideCheck, held, card]
  rfl

theorem Decision.Drops.check (drops : d.Drops x) : decideCheck x d = decideCheck x .turnAway := by
  rcases drops with rfl | ⟨some_, rfl⟩
  · rfl
  · exact decideCheck_fits List.length_replicate some_

theorem serveDecide_wrong (check : decideCheck x d = decideCheck x .turnAway) (wrong : x.state ≠ .held ∨ x.card = .pending)
    (v : Fin 64) (s : State) : serveDecide d v x s = refuse s .wrongState := by
  simp only [serveDecide, check, decideCheck_wrong wrong]

theorem serveDecide_drops (drops : d.Drops x) (held : x.state = .held) (card : x.card ≠ .pending) (v : Fin 64) (s : State) :
    serveDecide d v x s = accept (s.turnAway x.lane v .server .turnAway).startJobs
      (eDecide (s.turnAway x.lane v .server .turnAway).startJobs v) := by
  have check := drops.check.trans (decideCheck_held held card)
  rcases drops with rfl | ⟨some_, rfl⟩
  · simp only [serveDecide, check, State.decide]
  · have none_ : (List.replicate x.legs.length Choice.drop).any Choice.admits = false := by
      simp [Choice.admits]
    simp only [serveDecide, check, State.decide, choiceCheck_drop, none_]
    rfl

theorem serveDecide_admits (length : cs.length = x.legs.length) (some_ : x.legs ≠ []) (held : x.state = .held)
    (card : x.card ≠ .pending) (fits : choiceCheck s.book (s.handle v) x.legs cs = none) (admits : ∃ c ∈ cs, c ≠ .drop) :
    serveDecide (.list cs) v x s = accept (s.admitByHost x.lane v x cs).startJobs
      (eDecide (s.admitByHost x.lane v x cs).startJobs v) := by
  have any : cs.any Choice.admits = true := by
    simpa [Choice.admits] using admits
  simp only [serveDecide, (decideCheck_fits length some_).trans (decideCheck_held held card), fits, State.decide, any, if_true]

theorem serveDecide_named {r : Result} {i : Nat} (length : cs.length = x.legs.length) (some_ : x.legs ≠ [])
    (held : x.state = .held) (card : x.card ≠ .pending)
    (named : choiceCheck s.book (s.handle v) x.legs cs = some (r, i)) :
    serveDecide (.list cs) v x s = ⟨s, r, e1 i⟩ := by
  simp only [serveDecide, (decideCheck_fits length some_).trans (decideCheck_held held card), named]

/-! ### An admission by the host (R154) -/

/-- The booking of each leg takes what its choice asks for (R154, R155). -/
def State.chosen (s : State) (h : Handle) (x : Visit) (cs : List Choice) : State :=
  (x.legs.zip cs).foldl (fun u p => if p.2 = .drop then u.revertBooking p.1 h else u.admitBooking p.1 h) s

theorem chosen_actsOnBook (h : Handle) (x : Visit) (cs : List Choice) : ActsOnBook fun s => s.chosen h x cs :=
  ActsOnBook.foldl
    (f := fun (u : State) (p : Leg × Choice) => if p.2 = .drop then u.revertBooking p.1 h else u.admitBooking p.1 h)
    (fun p => by
      by_cases drop : p.2 = .drop
      · simpa only [drop, if_true] using revertBooking_actsOnBook p.1 h
      · simpa only [drop, if_false] using admitBooking_actsOnBook p.1 h) _

theorem chooseBooking_eq (s : State) (h : Handle) (l : Leg) (c : Choice) : s.chooseBooking h l c =
    if c = .drop then s.revertBooking l h else s.admitBooking l h := by
  cases c <;> rfl

/-- The visit that a host's admission hands to the Yard Allocator. -/
def Visit.chosen (x : Visit) (cs : List Choice) : Visit := { x with
  legs := List.zipWith Leg.choose x.legs cs
  source := some .server
  outcome := some .admission
  holdStart := none
  timeoutDue := false }

theorem admitByHost_eq (here : s.visit v = some x) (n : Lane) (cs : List Choice) : s.admitByHost n v x cs =
    State.allocate { s with
      book := (s.chosen (s.handle v) x cs).book
      ring := (s.chosen (s.handle v) x cs).ring
      lanes := s.lanes.set n { s.lane n with dwell := .stopped }
      visits := s.visits.set v { s.visits[v] with visit := some (x.chosen cs) } } n v := by
  have acts := chosen_actsOnBook (s.handle v) x cs s (s.stopDwell n) rfl rfl
  beta_reduce at acts
  unfold State.admitByHost
  simp only [chooseBooking_eq]
  change State.allocate (State.modVisit ((s.stopDwell n).chosen (s.handle v) x cs) v _) n v = _
  rw [acts]
  generalize (s.chosen (s.handle v) x cs).book = book
  generalize (s.chosen (s.handle v) x cs).ring = ring
  have there : State.visit { s.stopDwell n with book := book, ring := ring } v = some x := here
  rw [modVisit_eq there]
  rfl

/-- What a choice makes of a leg's disposition. -/
def Choice.disposition : Choice → Disposition
  | .yard => .yard
  | .inspect => .inspect
  | .drop => .dropped

theorem choose_eq (l : Leg) (c : Choice) : l.choose c = { l with disposition := c.disposition, dest := none } := by
  cases c <;> rfl

theorem chosen_dispositions : ∀ {legs : List Leg} {cs : List Choice}, cs.length = legs.length →
    (List.zipWith Leg.choose legs cs).map (·.disposition) = cs.map Choice.disposition
  | [], [], _ => rfl
  | l :: legs, c :: cs, length => by
    rw [List.zipWith_cons_cons, List.map_cons, List.map_cons, choose_eq, chosen_dispositions (Nat.succ.inj length)]

theorem setDest_disposition (l : Leg) (d : Option Dest) : (l.setDest d).disposition = l.disposition := by
  cases d <;> rfl

/-- What the visit of an admission by the host is after it (R154, R172). -/
theorem Allocated.of_chosen {cs : List Choice} (length : cs.length = x.legs.length) (is : Allocated s (x.chosen cs) z) :
    z.source = some .server ∧ z.outcome = some .admission ∧ z.timeoutDue = false
      ∧ z.legs.map (·.disposition) = cs.map Choice.disposition
      ∧ (z.state = .yardWait ∨ z.state = .directing ∨ z.state = .releasing) := by
  have legs := chosen_dispositions length
  have placed {dests : List (Option Dest)} (fits : s.placeLegs [] [] (x.chosen cs).legs = some dests) :
      (List.zipWith Leg.setDest (x.chosen cs).legs dests).map (·.disposition) = cs.map Choice.disposition :=
    (map_zipWith_left setDest_disposition ((placeLegs_eq_some [] []).1 fits).1).trans legs
  cases is with
  | waits => exact ⟨rfl, rfl, rfl, legs, .inl rfl⟩
  | directs dests fits => exact ⟨rfl, rfl, rfl, placed fits, .inr (.inl rfl)⟩
  | reported dests fits => exact ⟨rfl, rfl, rfl, placed fits, .inr (.inr rfl)⟩

theorem eDecide_of_visit (here : s.visit v = some x) : eDecide s v =
    e1 x.state.code ++ eList (fun l : Leg => e1 l.disposition.code ++ eOpt eDest l.dest) x.legs := by
  simp only [eDecide, here]

end Sys2Proof.Machine

open Sys2Proof Sys2Proof.Machine in
/-- Settles O43. -/
theorem visitDecideActsOnAHeldVisit : Obligations.VisitDecideActsOnAHeldVisit := by
  intro s f rest v x more ready here fields choices isTurnAway
  have isChoices (cs : List Choice) : choices cs = 0x01#8 :: eList eChoice cs := by
    refine congrArg (fun e => 0x01#8 :: eList e cs) (funext fun c => ?_)
    cases c <;> rfl
  have named (serve : Fin 64 → Visit → Answer) : onVisit (v.val, s.visits[v].gen.val) (s.taken rest) serve = serve v x :=
    onVisit_of_open (s := s.taken rest) here serve
  have decodes {cs : List Choice} (is : more = choices cs) (few : cs.length ≤ 2) :
      decodeAll dDecide f.fields = some ((v.val, s.visits[v].gen.val), .list cs) := by
    rw [fields, is, isChoices]
    exact decodeAll_choices (s.handle v) few
  have drops (is : isTurnAway) : ∃ d : Decision, d.Drops x
      ∧ decodeAll dDecide f.fields = some ((v.val, s.visits[v].gen.val), d) := by
    rcases is with is | ⟨some_, few, is⟩
    · refine ⟨.turnAway, .inl rfl, ?_⟩
      rw [fields, is]
      exact decodeAll_turnAway (s.handle v)
    · exact ⟨.list (List.replicate x.legs.length .drop), .inr ⟨some_, rfl⟩,
        decodes is (by rw [List.length_replicate]; exact few)⟩
  have answers {d : Decision} {r : Result} {bytes : List Byte}
      (decoded : decodeAll dDecide f.fields = some ((v.val, s.visits[v].gen.val), d))
      (serves : serveDecide d v x (s.taken rest) = ⟨s.taken rest, r, bytes⟩) :
      exec .visitDecide s = .next ((s.taken rest).answered f r bytes) :=
    live_takeRequest_of_serve (code := 0x29#8)
      (serve := fun (p : (Nat × Nat) × Decision) t => onVisit p.1 t fun v x => serveDecide p.2 v x t) ready decoded ((named _).trans serves)
  have ends {d : Decision} {w : State} {bytes : List Byte}
      (decoded : decodeAll dDecide f.fields = some ((v.val, s.visits[v].gen.val), d))
      (serves : serveDecide d v x (s.taken rest) = accept w.startJobs bytes) :=
    ends_with_jobs (code := 0x29#8)
      (serve := fun (p : (Nat × Nat) × Decision) t => onVisit p.1 t fun v x => serveDecide p.2 v x t) ready decoded ((named _).trans serves)
  refine ⟨fun is wrong => ?wrong, fun cs is few => ⟨fun misfit => ?misfit, fun length some_ wrong => ?refused,
    fun r i length some_ held card names => ?names⟩, fun n resident lane => ⟨fun is held card => ?turnAway,
    fun cs is few length held card fits admits => ?admits⟩⟩
  case wrong =>
    obtain ⟨d, drops, decoded⟩ := drops is
    exact answers decoded (serveDecide_wrong drops.check wrong v _)
  case misfit => exact answers (decodes is few) (serveDecide_misfit misfit v _)
  case refused => exact answers (decodes is few) (serveDecide_wrong (decideCheck_fits length some_) wrong v _)
  case names => exact answers (decodes is few) (serveDecide_named (s := s.taken rest) length some_ held card names)
  case turnAway =>
    intro reverted w
    subst lane
    obtain ⟨d, drops, decoded⟩ := drops is
    have acts := reverted_actsOnBook (s.handle v) x.legs
    have book := acts.book_eq (s := s) (t := s.taken rest) rfl rfl
    have ring := acts.ring_eq (s := s) (t := s.taken rest) rfl rfl
    have away : (s.taken rest).turnAway x.lane v .server .turnAway = w := by
      rw [turnAway_eq (s := s.taken rest) here]
      have handle : (s.taken rest).handle v = s.handle v := rfl
      rw [handle, book, ring]
      rfl
    have gone : w.visit v = some { x with
        legs := x.legs.map fun l => { l with disposition := .dropped, dest := none }
        source := some .server
        outcome := some .turnAway
        state := .releasing
        holdStart := none
        timeoutDue := false } := by simp [w, State.visit]
    clear_value w
    have serves := serveDecide_drops drops held card v (s.taken rest)
    rw [away, eDecide_of_visit ((startJobs_visit w v).trans gone)] at serves
    obtain ⟨runs, frame, starts⟩ := ends decoded serves
    refine ⟨_, runs.trans ?_, frame, starts⟩
    simp [eList, List.flatMap_map, eOpt]
  case admits =>
    intro chosen disposition dest admitted w
    subst lane
    have some_ : x.legs ≠ [] := fun nil => by
      rw [nil, List.length_nil, List.length_eq_zero_iff] at length
      subst length
      obtain ⟨c, mem, -⟩ := admits
      cases mem
    have isDisposition : disposition = Choice.disposition := funext fun c => by cases c <;> rfl
    have isDest : eDest = dest := funext fun d => by cases d <;> rfl
    have isChosen : List.zipWith (fun l c => { l with disposition := disposition c, dest := none }) x.legs cs
        = List.zipWith Leg.choose x.legs cs := by
      rw [isDisposition]
      exact congrArg (fun g => List.zipWith g x.legs cs) (funext fun l => funext fun c => (choose_eq l c).symm)
    have isAdmitted : (s.taken rest).admitByHost x.lane v x cs = w := by
      have acts := chosen_actsOnBook (s.handle v) x cs
      have book := acts.book_eq (s := s) (t := s.taken rest) rfl rfl
      have ring := acts.ring_eq (s := s) (t := s.taken rest) rfl rfl
      rw [admitByHost_eq (s := s.taken rest) here]
      have handle : (s.taken rest).handle v = s.handle v := rfl
      rw [handle, book, ring]
      simp only [w, admitted, isChosen]
      rfl
    have seated : admitted.Resident x.lane v (x.chosen cs) := by
      refine ⟨?_, ?_⟩
      · simpa [admitted, State.lane] using resident.1
      · simp [admitted, State.visit, Visit.chosen, isChosen]
    obtain ⟨z, frame, visits, allocated, -, -⟩ := allocate_spec seated
    obtain ⟨source, outcome, due, legs, ends_⟩ := allocated.of_chosen length
    have there : w.visit v = some z := visit_set_same visits
    clear_value w
    have serves := serveDecide_admits (s := s.taken rest) length some_ held card fits admits
    rw [isAdmitted, eDecide_of_visit ((startJobs_visit w v).trans there), isDest] at serves
    obtain ⟨runs, same, starts⟩ := ends (decodes is few) serves
    exact ⟨_, z, runs, same, starts, (startJobs_visit w v).trans there, source, outcome, due, isDisposition ▸ legs, ends_⟩
end

section
/-!
PROOFS. LEG_DONE (R176, R177).
-/

namespace Sys2Proof.Machine

variable {s t u w : State} {f : ReqFrame} {rest : List ReqFrame} {v : Fin 64} {x : Visit} {l : Leg} {i : Nat}

theorem decodeAll_dLegDone (h : Handle) (byte : i < 256) :
    decodeAll dLegDone (e1 h.slot.val ++ e1 h.gen.val ++ e1 i) = some ((h.slot.val, h.gen.val), i) := by
  refine decodeAll_of_run_nil ?_
  simp only [dLegDone, List.append_assoc, run_bind, run_dHandle _ _ _ (Nat.lt_of_lt_of_le h.slot.isLt (by decide))
    (Nat.lt_of_lt_of_le h.gen.isLt (by decide)), run_d1 _ _ byte, Option.bind_some, run_pure]

theorem leg_eq_none (bad : i = 0 ∨ 2 < i ∨ x.legs.length < i) : x.leg i = none := by
  unfold Visit.leg
  split
  · exact List.getElem?_eq_none (by omega)
  · rfl

theorem leg_eq_some (number : i = 1 ∨ i = 2) (here : x.legs[i - 1]? = some l) : x.leg i = some l := by
  rw [Visit.leg, if_pos number, here]

theorem canFinish_iff : l.canFinish x = true ↔
    x.state = .enRoute ∧ (l.disposition = .yard ∨ l.disposition = .inspect) ∧ l.dest ≠ none ∧ l.done = false := by
  simp [Leg.canFinish, Option.isSome_iff_ne_none, and_assoc]

theorem serveLegDone_of_finishing (leg : x.leg i = some l) (can : l.canFinish x = true) (s : State) :
    serveLegDone i v x s = accept (s.finishLeg v i l) (eLegDone (s.finishLeg v i l) l) := by
  simp only [serveLegDone, leg, can, if_true]

/-- A leg reported done, and its destination converted (R177). -/
theorem finishLeg_eq (here : s.visit v = some x) {yard : Yard}
    (converts : s.convertLeg (s.handle v) i l = { s with yard := yard }) :
    s.finishLeg v i l = (State.retry { s with
      visits := s.visits.set v { s.visits[v] with
        visit := some { x with legs := x.legs.set (i - 1) { l with done := true } } }
      yard := yard }).startJobs := by
  unfold State.finishLeg
  have there : State.visit { s with yard := yard } v = some x := here
  rw [converts, modVisit_eq there]

end Sys2Proof.Machine

open Sys2Proof Sys2Proof.Machine in
/-- Settles O47. -/
theorem legDoneConvertsTheDestination : Obligations.LegDoneConvertsTheDestination := by
  intro s f rest v x i ready here byte fields
  have decoded : decodeAll dLegDone f.fields = some ((v.val, s.visits[v].gen.val), i) := by
    rw [fields]
    exact decodeAll_dLegDone (s.handle v) byte
  have named (serve : Fin 64 → Visit → Answer) : onVisit (v.val, s.visits[v].gen.val) (s.taken rest) serve = serve v x :=
    onVisit_of_open (s := s.taken rest) here serve
  have refuses {r : Result} (serves : serveLegDone i v x (s.taken rest) = refuse (s.taken rest) r) :
      exec .legDone s = .next ((s.taken rest).answered f r []) :=
    live_takeRequest_of_serve (code := 0x3C#8)
      (serve := fun (p : (Nat × Nat) × Nat) t => onVisit p.1 t fun v x => serveLegDone p.2 v x t) ready decoded
      ((named _).trans serves)
  refine ⟨fun bad => refuses ?_, fun l number at_ => ⟨fun wrong => refuses ?_, fun enRoute placed open_ => ?_⟩⟩
  · simp only [serveLegDone, leg_eq_none bad]
  · have cannot : ¬ l.canFinish x = true := by
      rw [canFinish_iff]
      rintro ⟨state, disposition, dest, done⟩
      rcases wrong with h | ⟨yard, inspect⟩ | h | h
      · exact h state
      · exact disposition.elim yard inspect
      · exact dest h
      · exact Bool.false_ne_true (done.symm.trans h)
    simp only [serveLegDone, leg_eq_some number at_, cannot]
    rfl
  · intro marked becomes teu
    have converted {yard : Yard} {place : List Byte} {counts : Yard → List Byte} (dest : l.dest ≠ none)
        (converts : (s.taken rest).convertLeg (s.handle v) i l = { s.taken rest with yard := yard })
        (answers : ∀ t, eLegDone t l = e1 l.disposition.code ++ 0x01#8 :: place ++ [0x01#8] ++ counts t.yard) :
        becomes yard place counts := by
      have serves := serveLegDone_of_finishing (v := v) (leg_eq_some number at_)
        (canFinish_iff.2 ⟨enRoute, placed, dest, open_⟩) (s.taken rest)
      rw [finishLeg_eq (s := s.taken rest) here converts, answers] at serves
      obtain ⟨runs, frame, starts⟩ := ends_with_jobs (code := 0x3C#8)
        (serve := fun (p : (Nat × Nat) × Nat) t => onVisit p.1 t fun v x => serveLegDone p.2 v x t) ready decoded
        ((named _).trans serves)
      exact ⟨_, runs, frame, starts⟩
    clear_value becomes
    refine ⟨fun b dest => ?_, fun b dest => ?_⟩
    · intro old counts
      have answers (t : State) : eLegDone t l
          = e1 l.disposition.code ++ 0x01#8 :: (0x00#8 :: e1 b.val) ++ [0x01#8] ++ counts t.yard := by
        simp [eLegDone, dest, destBlock, eOpt, eDest, eFlag, counts, Block.free]
      refine ⟨fun drop => converted (by simp [dest]) ?_ answers, fun pickup => converted (by simp [dest]) ?_ answers⟩
      · simp only [State.convertLeg, dest, drop, if_true]
        rfl
      · simp only [State.convertLeg, dest, pickup]
        rfl
    · refine converted (by simp [dest]) ?_ fun t => ?_
      · simp only [State.convertLeg, dest]
        rfl
      · simp [eLegDone, dest, destBlock, eOpt, eDest, eFlag]
end

section
/-!
PROOFS. The settings of the yard: BLOCK_SET, GROUP_SET, BAY_SET and BLOCK_QUERY (R163 to R167, R181).
-/

namespace Sys2Proof.Machine

variable {s t u w : State} {f : ReqFrame} {rest : List ReqFrame} {b : Fin 48} {q : Block} {r : BlockReq}

/-! ### The fields as a host sends them -/

theorem decodeAll_dBlockSet {st : Option BlockState} {code : Option (List Byte)} {acc : Option Accepts}
    {cap occ : Option Nat} {route : Option (List Byte)} (b : Fin 48) (caps : ∀ k ∈ cap, k < 65536)
    (occs : ∀ k ∈ occ, k < 65536) (codes : ∀ t ∈ code, t.length < 256) (routes : ∀ t ∈ route, t.length < 256) :
    decodeAll dBlockSet (e1 b.val ++ eOpt (fun q : BlockState => e1 q.code) st ++ eOpt eRaw code
        ++ eOpt (fun q : Accepts => e1 q.code) acc ++ eOpt e2 cap ++ eOpt e2 occ ++ eOpt eRaw route)
      = some (b.val, ⟨st, code.map normalise, acc, cap, occ, route.map normalise⟩) := by
  have states (more : List Byte) : (dOpt (dEnum allBlockStates)).run (eOpt (fun q : BlockState => e1 q.code) st ++ more)
      = some (st, more) :=
    run_dOpt _ _ _ _ fun q _ r => run_dEnum _ _ q r (by cases q <;> rfl) (by cases q <;> decide)
  have accepts (more : List Byte) : (dOpt (dEnum allAccepts)).run (eOpt (fun q : Accepts => e1 q.code) acc ++ more)
      = some (acc, more) :=
    run_dOpt _ _ _ _ fun q _ r => run_dEnum _ _ q r (by cases q <;> rfl) (by cases q <;> decide)
  apply decodeAll_of_run_nil
  simp only [dBlockSet, List.append_assoc, run_bind, run_d1 _ _ (Nat.lt_of_lt_of_le b.isLt (by decide)), states, accepts,
    run_dOpt_dText codes, run_dOpt_dText routes, run_dOpt_d2 _ _ caps, run_dOpt_d2 _ _ occs, Option.bind_some, run_pure]

theorem decodeAll_dGroupSet {l : List (Fin 48)} (g : Fin 32) (few : l.length ≤ 4) :
    decodeAll dGroupSet (e1 g.val ++ 0x01#8 :: eList (fun b : Fin 48 => e1 b.val) l)
      = some (g.val, some (l.map (·.val))) := by
  have list (more : List Byte) : (dOpt (dList 4 d1)).run (0x01#8 :: (eList (fun b : Fin 48 => e1 b.val) l ++ more))
      = some (some (l.map (·.val)), more) :=
    run_dOpt_map (v := some l) (fun k is more => by
      cases is
      exact run_dList_map few (by omega) (fun b _ more => run_d1 _ _ (Nat.lt_of_lt_of_le b.isLt (by decide))) more) more
  apply decodeAll_of_run_nil
  simp only [dGroupSet, List.append_assoc, List.cons_append, run_bind, run_d1 _ _ (Nat.lt_of_lt_of_le g.isLt (by decide)),
    list, Option.bind_some, run_pure]

theorem decodeAll_dGroupSet_none (g : Fin 32) : decodeAll dGroupSet (e1 g.val ++ [0x00#8]) = some (g.val, none) := by
  apply decodeAll_of_run_nil
  simp only [dGroupSet, List.append_assoc, run_bind, run_d1 _ _ (Nat.lt_of_lt_of_le g.isLt (by decide)), Option.bind_some]
  rfl

theorem decodeAll_dBaySet {code route : Option (List Byte)} (b : Fin 4) (isOpen : Option Bool)
    (codes : ∀ t ∈ code, t.length < 256) (routes : ∀ t ∈ route, t.length < 256) :
    decodeAll dBaySet (e1 b.val ++ eOpt eRaw code ++ eOpt eRaw route ++ eOpt (fun o : Bool => e1 (if o then 0 else 1)) isOpen)
      = some (b.val, ⟨code.map normalise, route.map normalise, isOpen⟩) := by
  have opens (more : List Byte) : (dOpt (dEnum [true, false])).run
      (eOpt (fun o : Bool => e1 (if o then 0 else 1)) isOpen ++ more) = some (isOpen, more) :=
    run_dOpt _ _ _ _ fun o _ r => run_dEnum _ _ o r (by cases o <;> rfl) (by cases o <;> decide)
  apply decodeAll_of_run_nil
  simp only [dBaySet, List.append_assoc, run_bind, run_d1 _ _ (Nat.lt_of_lt_of_le b.isLt (by decide)), opens,
    run_dOpt_dText codes, run_dOpt_dText routes, Option.bind_some, run_pure]

/-- A request whose first field is a number that its owner refuses. -/
theorem takeRequest_badNumber {α : Type} {code : Byte} {k : Nat → Dec α} {get : α → Nat} {serve : α → State → Answer}
    (h : ∀ n, Yields (k n) fun a => get a = n) (ready : s.Ready code f rest) {b : Byte} {more : List Byte}
    (fields : f.fields = b :: more) (refuses : ∀ a t, get a = b.toNat → serve a t = refuse t .badParam) :
    live s (takeRequest code (d1 >>= k) serve s) = .next ((s.taken rest).answered f .badParam []) := by
  rw [live_on ready.power]
  cases decoded : decodeAll (d1 >>= k) f.fields with
  | none => rw [takeRequest_undecoded ready decoded]
  | some a =>
    rw [takeRequest_ready ready decoded, refuses a _ (lane_of_decodeAll h (fields ▸ decoded))]
    rfl

/-! ### BLOCK_SET (R163, R164) -/

/-- What a block that BLOCK_SET gives new values has before them (R163). -/
def Block.fresh (q : Block) : Block := if q.state = .undefined then ⟨.undefined, none, none, 0, 0, q.reserved, none⟩ else q

theorem Block.fresh_state (q : Block) : q.fresh.state = q.state := by
  unfold Block.fresh
  split
  · next is => rw [is]
  · rfl

theorem Block.fresh_reserved (q : Block) : q.fresh.reserved = q.reserved := by
  unfold Block.fresh
  split <;> rfl

theorem BlockReq.defines_iff : r.defines = true ↔ r.state = some .isOpen ∨ r.state = some .closed := by
  simp [BlockReq.defines]

theorem BlockReq.givesOther_iff : r.givesOther = true ↔
    r.code ≠ none ∨ r.accepts ≠ none ∨ r.capacity ≠ none ∨ r.occupied ≠ none ∨ r.route ≠ none := by
  simp [BlockReq.givesOther, Option.isSome_iff_ne_none, or_assoc]

theorem BlockReq.ok_iff : r.ok = false ↔ (∃ q ∈ [r.capacity, r.occupied], ∃ k ∈ q, 4000 < k)
    ∨ (∃ t ∈ r.code, t.length < 1 ∨ 4 < t.length) ∨ r.state = some .undefined ∧ r.givesOther = true := by
  simp only [BlockReq.ok, Bool.and_eq_false_iff, Option.all_eq_false, decide_eq_false_iff_not, Nat.not_le,
    Bool.not_eq_eq_eq_not, Bool.not_false, Bool.and_eq_true, beq_iff_eq, lengthIn]
  simp [or_assoc]

theorem Block.apply_eq (q : Block) (r : BlockReq) : q.apply r =
    if r.state = some .undefined ∨ (q.fresh.state = .undefined ∧ ¬ (r.state = some .isOpen ∨ r.state = some .closed)) then
      ⟨.undefined, none, none, 0, 0, q.fresh.reserved, none⟩
    else { q.fresh with
      state := r.state.getD q.fresh.state
      code := r.code.or q.fresh.code
      accepts := r.accepts.or q.fresh.accepts
      capacity := r.capacity.getD q.fresh.capacity
      occupied := r.occupied.getD q.fresh.occupied
      route := some ((r.route.map (·.take 20)).getD (q.fresh.route.getD [])) } := by
  have isFresh : (if q.state = .undefined then q.undefine else q) = q.fresh := rfl
  simp only [Block.apply, isFresh, Block.fresh_state, Block.fresh_reserved, ← BlockReq.defines_iff, Bool.not_eq_true]
  rfl

theorem codeClash_iff {code : Option Text} : s.codeClash b code = true ↔
    ∃ c : Fin 48, c ≠ b ∧ s.yard.blocks[c].state ≠ .undefined ∧ code ≠ none ∧ s.yard.blocks[c].code = code := by
  simp only [State.codeClash, Bool.and_eq_true, List.any_eq_true, List.mem_finRange, true_and, bne_iff_ne, beq_iff_eq,
    Option.isSome_iff_ne_none]
  constructor
  · rintro ⟨some_, c, ⟨other, defined⟩, same⟩
    exact ⟨c, other, defined, some_, same⟩
  · rintro ⟨c, other, defined, some_, same⟩
    exact ⟨some_, c, ⟨other, defined⟩, same⟩

theorem picksUpAt_iff {l : Leg} : l.picksUpAt b = true ↔
    (l.kind = some .importPickup ∨ l.kind = some .emptyPickup) ∧ l.done = false ∧ l.dest = some (.block b) := by
  have pickup : (l.kind.any fun k => !k.isDrop) = true ↔ l.kind = some .importPickup ∨ l.kind = some .emptyPickup := by
    rcases l.kind with _ | _ | _ | _ | _ <;> simp [Kind.isDrop]
  simp only [Leg.picksUpAt, Bool.and_eq_true, pickup, Bool.not_eq_true', beq_iff_eq, and_assoc]

theorem mem_openLegs {l : Leg} : l ∈ s.openLegs ↔ ∃ v x, s.visit v = some x ∧ l ∈ x.legs := by
  simp only [State.openLegs, List.mem_flatMap, List.mem_finRange, true_and]
  refine exists_congr fun v => ?_
  cases s.visit v <;> simp

theorem blockInUse_iff : s.blockInUse b = true ↔ 0 < s.yard.blocks[b].reserved ∨ (∃ g : Fin 32, b ∈ s.yard.groups[g])
    ∨ ∃ v x, s.visit v = some x ∧ ∃ l ∈ x.legs, (l.kind = some .importPickup ∨ l.kind = some .emptyPickup)
        ∧ l.done = false ∧ l.dest = some (.block b) := by
  simp only [State.blockInUse, Bool.or_eq_true, decide_eq_true_iff, List.any_eq_true, List.mem_finRange, true_and,
    List.contains_iff_mem, picksUpAt_iff, mem_openLegs, or_assoc]
  refine or_congr .rfl (or_congr .rfl ⟨?_, ?_⟩)
  · rintro ⟨l, ⟨v, x, here, mem⟩, picks⟩
    exact ⟨v, x, here, l, mem, picks⟩
  · rintro ⟨v, x, here, l, mem, picks⟩
    exact ⟨l, ⟨v, x, here, mem⟩, picks⟩

theorem serveBlockSet_of_refused {c : Result} (check : blockCheck s b r = some c) : serveBlockSet b r s = refuse s c := by
  simp only [serveBlockSet, check]

theorem serveBlockSet_of_taken (check : blockCheck s b r = none) (is : s.yard.blocks[b].apply r = q) : serveBlockSet b r s =
    let t := (State.retryIf { s with yard := { s.yard with blocks := s.yard.blocks.set b q } } (q != s.yard.blocks[b])).startJobs
    accept t (eBlock t.yard.blocks[b]) := by
  subst is
  simp only [serveBlockSet, check, State.modBlock]

/-! ### GROUP_SET (R165) -/

theorem toBlocks_map (l : List (Fin 48)) : toBlocks (l.map (·.val)) = l := by
  simp [toBlocks, List.filterMap_map]

theorem all_definedBlock {l : List (Fin 48)} :
    (l.map (·.val)).all s.definedBlock = true ↔ ∀ b ∈ l, s.yard.blocks[b].state ≠ .undefined := by
  simp [State.definedBlock]

theorem nodup_vals {l : List (Fin 48)} : (l.map (·.val)).Nodup ↔ l.Nodup :=
  List.nodup_map_iff Fin.val_injective

theorem serveGroupSet_of_taken {g : Fin 32} {l : List (Fin 48)} (defined : ∀ b ∈ l, s.yard.blocks[b].state ≠ .undefined)
    (distinct : l.Nodup) : serveGroupSet g (some (l.map (·.val))) s =
      let t := (State.retryIf { s with yard := { s.yard with groups := s.yard.groups.set g l } }
        (l != s.yard.groups[g])).startJobs
      accept t (eList (fun b : Fin 48 => e1 b.val) t.yard.groups[g]) := by
  have good : ((l.map (·.val)).all s.definedBlock && decide (l.map (·.val)).Nodup) = true := by
    rw [Bool.and_eq_true, decide_eq_true_iff, all_definedBlock, nodup_vals]
    exact ⟨defined, distinct⟩
  have changed : (s.yard.groups[g] != l) = (l != s.yard.groups[g]) := bne_comm
  simp only [serveGroupSet, good, if_true, toBlocks_map, changed]

/-! ### BAY_SET (R167) -/

theorem serveBaySet_of_taken {b : Fin 4} {r : BayReq} {q : Bay} (fits : r.code.all (lengthIn 1 4) = true)
    (is : s.yard.bays[b].apply r = q) : serveBaySet b r s =
      let t := (State.retryIf { s with yard := { s.yard with bays := s.yard.bays.set b q } }
        (q.isOpen && !s.yard.bays[b].isOpen)).startJobs
      accept t (eBaySet t.yard.bays[b]) := by
  subst is
  simp only [serveBaySet, fits, if_true, State.modBay]

/-! ### BLOCK_QUERY (R181) -/

theorem countP_openLegs (s : State) (b : Fin 48) : s.openLegs.countP (Leg.reserves b) =
    ((List.finRange 64).map fun v => ((s.visit v).map fun x => x.legs.countP (Leg.reserves b)).getD 0).sum := by
  rw [State.openLegs, List.countP_flatMap]
  refine congrArg List.sum (List.map_congr_left fun v _ => ?_)
  rw [Function.comp_apply]
  cases s.visit v <;> rfl

end Sys2Proof.Machine

open Sys2Proof Sys2Proof.Machine in
/-- Settles O45. -/
theorem yardSettingsAreReplacedAndReported : Obligations.YardSettingsAreReplacedAndReported := by
  classical
  refine ⟨fun s f rest => ?_, fun s f rest ready => ⟨fun b fields => ?block, fun b wide fields => ?wide,
    fun fields => ?yard⟩⟩
  case block =>
    intro q holding
    have decoded : decodeAll (dOpt d1) f.fields = some (some b.val) := by
      rw [fields]
      exact decodeAll_of_run_nil (run_dOpt_d1 (some b.val) [] (by simp; omega))
    refine live_takeRequest_of_serve (code := 0x39#8) ready decoded ?_
    simp only [serveBlockQuery, b.isLt, dif_pos, Fin.eta]
    have groups : ((List.finRange 32).filter fun g => (s.yard.groups[g]).contains b)
        = (List.finRange 32).filter fun g => b ∈ s.yard.groups[g] :=
      List.filter_congr fun g _ => by simp
    refine congrArg (Answer.mk (s.taken rest) .ok) ?_
    have isHolding : (s.taken rest).openLegs.countP (Leg.reserves b) = holding := countP_openLegs s b
    rw [eBlockQuery, isHolding, ← groups]
    rfl
  case wide =>
    have decoded : decodeAll (dOpt d1) f.fields = some (some b.toNat) := by
      rw [fields]
      rfl
    refine live_takeRequest_of_serve (code := 0x39#8) ready decoded ?_
    rw [serveBlockQuery, dif_neg (by omega)]
    rfl
  case yard =>
    intro waiting
    have decoded : decodeAll (dOpt d1) f.fields = some none := by
      rw [fields]
      rfl
    refine live_takeRequest_of_serve (code := 0x39#8) ready decoded ?_
    have isWaiting : eWaiting s = waiting := by
      funext h
      cases here : s.named h with
      | none => simp only [eWaiting, waiting, here]
      | some x => simp only [eWaiting, waiting, here]; rfl
    have isWaiting' : eWaiting (s.taken rest) = waiting := isWaiting
    simp only [serveBlockQuery, eYard, isWaiting']
    rfl
  intro becomes refused block taken places
  have ends {α : Type} {c : Instr} {code : Byte} {dec : Dec α} {serve : α → State → Answer} {a : α} {u : State} {changed : Bool}
      {answer : State → List Byte} (runs : exec c s = live s (takeRequest code dec serve s)) (ready : s.Ready code f rest)
      (decoded : decodeAll dec f.fields = some a)
      (serves : serve a (s.taken rest) = accept (u.retryIf changed).startJobs (answer (u.retryIf changed).startJobs)) :
      becomes c u changed answer := by
    obtain ⟨answers, frame, starts⟩ := ends_with_jobs ready decoded serves
    exact ⟨_, runs.trans answers, frame, starts⟩
  have refuses {α : Type} {c : Instr} {code : Byte} {dec : Dec α} {serve : α → State → Answer} {a : α} {r : Result}
      (runs : exec c s = live s (takeRequest code dec serve s)) (ready : s.Ready code f rest)
      (decoded : decodeAll dec f.fields = some a) (serves : serve a (s.taken rest) = refuse (s.taken rest) r) :
      refused c r :=
    runs.trans (live_takeRequest_of_serve ready decoded serves)
  clear_value becomes
  refine ⟨fun b st code acc cap occ route ready caps occs codes routes fields => ?blockSet,
    fun g l ready few fields => ?groupSet, fun g ready fields => ?groupRead,
    fun b code route isOpen ready codes routes fields => ?baySet, fun c code k more ready fields _ out => ?range⟩
  case blockSet =>
    intro stored old others defines new bad undefinedOthers unfinished clash inUse
    obtain ⟨r, is⟩ : ∃ r : BlockReq, r = ⟨st, code.map normalise, acc, cap, occ, route.map normalise⟩ := ⟨_, rfl⟩
    have decoded : decodeAll dBlockSet f.fields = some (b.val, r) := by
      rw [fields, is]
      exact decodeAll_dBlockSet b caps occs codes routes
    have isNew : stored.apply r = new := by
      rw [Block.apply_eq, is]
      simp only [Option.map_map]
      rfl
    have isOthers : r.givesOther = true ↔ others := by
      rw [BlockReq.givesOther_iff, is]
      simp only [ne_eq, Option.map_eq_none_iff]
      rfl
    have isDefines : r.defines = true ↔ defines := by
      rw [BlockReq.defines_iff, is]
    have isBad : r.ok = false ↔ bad := by
      rw [BlockReq.ok_iff, isOthers, is]
      simp only [Option.mem_map, bad]
      simp
    have isState : old.state = stored.state := Block.fresh_state stored
    have isReserved : old.reserved = stored.reserved := Block.fresh_reserved stored
    have isClash : (s.taken rest).codeClash b new.code = true ↔ clash := codeClash_iff
    have isUse : (s.taken rest).blockInUse b = true ↔ inUse := by
      simp only [inUse, isReserved]
      exact blockInUse_iff
    have isUndefined : (stored.state = .undefined ∧ r.defines = false ∧ r.givesOther = true) ↔ undefinedOthers := by
      rw [← Bool.not_eq_true, isDefines, isOthers, ← isState]
    have isUnfinished : (stored.state = .undefined ∧ r.defines = true ∧ (r.code.isNone ∨ r.accepts.isNone)) ↔ unfinished := by
      rw [isDefines, ← isState, is]
      simp [unfinished]
    have check : blockCheck (s.taken rest) b r =
        if bad then some .badParam else if undefinedOthers then some .wrongState else if unfinished then some .badParam
        else if clash then some .badParam
        else if old.state ≠ .undefined ∧ st = some .undefined ∧ inUse then some .inUse else none := by
      refine if_congr (by rw [Bool.not_eq_true', isBad]) rfl (if_congr isUndefined rfl (if_congr isUnfinished rfl
        (if_congr (isNew ▸ isClash) rfl (if_congr ?_ rfl rfl))))
      rw [isUse, isState, is]
      rfl
    have serves : (if h : b.val < 48 then serveBlockSet ⟨b.val, h⟩ r (s.taken rest) else refuse (s.taken rest) .badParam)
        = serveBlockSet b r (s.taken rest) := dif_pos b.isLt
    have refusal {c : Result} (is : blockCheck (s.taken rest) b r = some c) : refused .blockSet c :=
      refuses (code := 0x38#8) rfl ready decoded (serves.trans (serveBlockSet_of_refused is))
    refine ⟨fun h₁ => refusal ?_, fun h₁ h₂ => refusal ?_, fun h₁ h₃ => refusal ?_, fun h₁ h₂ h₃ h₄ => refusal ?_,
      fun h₁ h₂ h₃ h₄ state undefines use => refusal ?_, fun h₁ h₂ h₃ h₄ free => ?_⟩
    · rw [check, if_pos h₁]
    · rw [check, if_neg h₁, if_pos h₂]
    · have h₂ : ¬ undefinedOthers := fun h => h.2.1 h₃.2.1
      rw [check, if_neg h₁, if_neg h₂, if_pos h₃]
    · rw [check, if_neg h₁, if_neg h₂, if_neg h₃, if_pos h₄]
    · rw [check, if_neg h₁, if_neg h₂, if_neg h₃, if_neg h₄, if_pos ⟨state, undefines, use⟩]
    · rw [if_neg h₁, if_neg h₂, if_neg h₃, if_neg h₄, if_neg free] at check
      clear_value new
      have answer := serveBlockSet_of_taken check isNew
      have isBlock (q : Block) : eBlock q = block q ++ eOpt eText q.route ++ taken q := by
        simp only [taken, ← List.append_assoc]
        rfl
      simp only [isBlock] at answer
      clear_value block taken
      have becoming := ends (code := 0x38#8) (c := .blockSet)
        (answer := fun t => block t.yard.blocks[b] ++ eOpt eText t.yard.blocks[b].route ++ taken t.yard.blocks[b])
        rfl ready decoded (serves.trans answer)
      exact becoming
  case groupSet =>
    have decoded : decodeAll dGroupSet f.fields = some (g.val, some (l.map (·.val))) := by
      rw [fields]
      exact decodeAll_dGroupSet g few
    have serves : (if h : g.val < 32 then serveGroupSet ⟨g.val, h⟩ (some (l.map (·.val))) (s.taken rest)
        else refuse (s.taken rest) .badParam) = serveGroupSet g (some (l.map (·.val))) (s.taken rest) := dif_pos g.isLt
    have all : (l.map (·.val)).all (s.taken rest).definedBlock = true ↔ ∀ b ∈ l, s.yard.blocks[b].state ≠ .undefined :=
      all_definedBlock
    refine ⟨fun bad => refuses (code := 0x3A#8) rfl ready decoded (serves.trans ?_),
      fun defined distinct => ?_⟩
    · refine if_neg fun good => ?_
      rw [Bool.and_eq_true, decide_eq_true_iff, all, nodup_vals] at good
      rcases bad with ⟨b, mem, undefined⟩ | repeats
      · exact good.1 b mem undefined
      · exact repeats good.2
    · have becoming := ends (code := 0x3A#8) (c := .groupSet)
        (answer := fun t => eList (fun b : Fin 48 => e1 b.val) t.yard.groups[g]) rfl ready decoded
        (serves.trans (serveGroupSet_of_taken (s := s.taken rest) defined distinct))
      exact becoming
  case groupRead =>
    have decoded : decodeAll dGroupSet f.fields = some (g.val, none) := by
      rw [fields]
      exact decodeAll_dGroupSet_none g
    refine live_takeRequest_of_serve (code := 0x3A#8) ready decoded ?_
    simp only [g.isLt, dif_pos]
    rfl
  case baySet =>
    intro new
    have decoded : decodeAll dBaySet f.fields = some (b.val, ⟨code.map normalise, route.map normalise, isOpen⟩) := by
      rw [fields]
      exact decodeAll_dBaySet b isOpen codes routes
    have serves : (if h : b.val < 4 then serveBaySet ⟨b.val, h⟩ ⟨code.map normalise, route.map normalise, isOpen⟩
        (s.taken rest) else refuse (s.taken rest) .badParam)
          = serveBaySet b ⟨code.map normalise, route.map normalise, isOpen⟩ (s.taken rest) := dif_pos b.isLt
    have isNew : s.yard.bays[b].apply ⟨code.map normalise, route.map normalise, isOpen⟩ = new := by
      simp only [Bay.apply, Option.map_map]
      rfl
    refine ⟨fun bad => refuses (code := 0x3B#8) rfl ready decoded (serves.trans ?_),
      fun good => ?_⟩
    · refine if_neg fun all => ?_
      obtain ⟨c, mem, out⟩ := bad
      have fits := (Option.all_eq_true ..).1 all (normalise c) (Option.mem_map_of_mem _ mem)
      simp only [lengthIn, Bool.and_eq_true, decide_eq_true_iff] at fits
      omega
    · have fits : (code.map normalise).all (lengthIn 1 4) = true := by
        rw [Option.all_eq_true]
        intro c mem
        obtain ⟨raw, given, rfl⟩ := Option.mem_map.1 mem
        simpa [lengthIn] using good raw given
      have answer := serveBaySet_of_taken (s := s.taken rest) (b := b) (r := ⟨_, route.map normalise, isOpen⟩) fits isNew
      clear_value new
      have becoming := ends (code := 0x3B#8) (c := .baySet) (answer := fun t => eBaySet t.yard.bays[b]) rfl ready decoded
        (serves.trans answer)
      exact becoming
  case range =>
    rcases out with ⟨rfl, rfl, wide⟩ | ⟨rfl, rfl, wide⟩ | ⟨rfl, rfl, wide⟩
    · refine takeRequest_badNumber (get := Prod.fst) (fun _ => ?_) ready fields fun a t is => ?_
      · exact yields_bind fun _ => yields_bind fun _ => yields_bind fun _ => yields_bind fun _ => yields_bind fun _ =>
          yields_bind fun _ => yields_pure rfl
      · rw [dif_neg (by omega)]
    · refine takeRequest_badNumber (get := Prod.fst) (fun _ => yields_bind fun _ => yields_pure rfl) ready fields
        fun a t is => ?_
      rw [dif_neg (by omega)]
    · refine takeRequest_badNumber (get := Prod.fst) (fun _ => ?_) ready fields fun a t is => ?_
      · exact yields_bind fun _ => yields_bind fun _ => yields_bind fun _ => yields_pure rfl
      · rw [dif_neg (by omega)]
end

section
/-!
PROOFS. The loop events of a lane (R60, R71 to R74, R79, R82, R84).
-/

namespace Sys2Proof.Machine

variable {s t u w : State} {n : Lane} {v k : Fin 64} {x : Visit} {p : Loop} {b : Bool}

/-! ### Opening a visit (R60, R71, R72) -/

/-- A lane that has just opened a visit (R71). -/
def LaneUnit.opening (l : LaneUnit) (v : Fin 64) : LaneUnit := { l with
  resident := some v, entryCleared := false, dwell := ⟨.oneShot, l.limits.approach, .approach, 0⟩ }

theorem openVisit_eq (s : State) (n : Lane) (v : Fin 64) : s.openVisit n v = { s with
    lanes := s.lanes.set n ((s.lane n).opening v)
    visits := s.visits.set v { s.visits[v] with visit := some (.opened n s.time.minute) }
    freeCount := s.freeCount - 1
    openWait := s.openWait.filter (· != n) } := by
  simp [State.openVisit, State.modLane, State.loadDwell, State.lane, LaneUnit.opening, Limits.get]

theorem lowestFreeSlot_of_first (free : s.visit k = none) (first : ∀ j : Fin 64, j < k → s.visit j ≠ none) :
    s.lowestFreeSlot = some k := by
  rw [State.lowestFreeSlot, List.find?_eq_some_iff_getElem]
  refine ⟨by rw [free]; rfl, k.val, by simp, by simp, fun j before => ?_⟩
  have taken := first ⟨j, by omega⟩ before
  simpa [Option.isSome_iff_ne_none] using taken

section
variable (empty : s.LaneEmpty n)
include empty

theorem takeEntry_of_free (mode : (s.lane n).mode = .auto) (stays : (s.lane n).closing = false) (room : s.freeCount ≠ 0)
    (free : s.visit k = none) (first : ∀ j : Fin 64, j < k → s.visit j ≠ none) : s.takeEntry n = s.openVisit n k := by
  simp only [State.takeEntry, mode, stays, laneState_of_auto empty mode, room, if_false, and_self, if_true,
    lowestFreeSlot_of_first free first]

theorem takeEntry_of_full (mode : (s.lane n).mode = .auto) (stays : (s.lane n).closing = false) (full : s.freeCount = 0) :
    s.takeEntry n = s.joinWait n := by
  simp only [State.takeEntry, mode, stays, laneState_of_auto empty mode, full, and_self, if_true]

end

theorem takeEntry_of_not (shut : (s.lane n).mode ≠ .auto ∨ (s.lane n).closing = true) : s.takeEntry n = s := by
  refine if_neg fun ⟨mode, closing⟩ => ?_
  rcases shut with other | closes
  · exact other mode
  · exact Bool.false_ne_true (closing.symm.trans closes)

theorem takeEntry_of_releasing (empty : (s.lane n).resident = none) (releasing : (s.lane n).releasing = true) :
    s.takeEntry n = s := by
  simp only [State.takeEntry, laneState_of_releasing empty releasing, ite_self]

/-! ### The departure (R79, R82, R84) -/

/-- A lane after a departure, before its closing or its next opening (R79, R84). -/
def LaneUnit.departed (l : LaneUnit) : LaneUnit := { l with
  resident := none, releasing := false, dwell := .stopped, clearOverdue := false }

/-- The state after a departure, before the lane's closing or its next opening (R79, R84). -/
def State.departedFrom (s : State) (n : Lane) : State := { s with
  lanes := s.lanes.set n (s.lane n).departed
  signs := s.signs.set n { s.sign n with abortSubject := none } }

theorem departedFrom_lane (s : State) (n : Lane) : (s.departedFrom n).lane n = (s.lane n).departed := lane_set_same rfl

theorem departedFrom_empty (s : State) (n : Lane) : (s.departedFrom n).LaneEmpty n := by
  rw [State.LaneEmpty, departedFrom_lane]
  exact ⟨rfl, rfl⟩

theorem afterDeparture_eq (s : State) (n : Lane) : s.afterDeparture n =
    if (s.lane n).closing then (s.departedFrom n).completeClosing n
    else if s.loops[n].entry then (s.departedFrom n).takeEntry n else s.departedFrom n := by
  have closing : ((s.departedFrom n).lane n).closing = (s.lane n).closing := by
    rw [departedFrom_lane]
    rfl
  rw [← closing]
  rfl

theorem afterDeparture_of_closing (closing : (s.lane n).closing = true) : s.afterDeparture n = { s with
    link := { s.link with changes := joinList (.lane n) s.link.changes }
    lanes := s.lanes.set n { (s.lane n).departed with mode := .closed, closing := false }
    signs := s.signs.set n { s.sign n with abortSubject := none } } := by
  rw [afterDeparture_eq, if_pos closing]
  simp [State.completeClosing, State.join, State.modLane, State.departedFrom, State.lane]

section
variable (stays : (s.lane n).closing = false)
include stays

theorem afterDeparture_of_leaving (leaves : s.loops[n].entry = false ∨ (s.lane n).mode ≠ .auto) :
    s.afterDeparture n = s.departedFrom n := by
  rw [afterDeparture_eq, stays, if_neg Bool.false_ne_true]
  split
  · next entry =>
    refine takeEntry_of_not (.inl ?_)
    rw [departedFrom_lane]
    exact leaves.resolve_left fun clear => Bool.false_ne_true (clear.symm.trans entry)
  · rfl

variable (entry : s.loops[n].entry = true)
include entry

theorem afterDeparture_takes : s.afterDeparture n = (s.departedFrom n).takeEntry n := by
  rw [afterDeparture_eq, stays, if_neg Bool.false_ne_true, if_pos entry]

variable (mode : (s.lane n).mode = .auto)
include mode

theorem afterDeparture_of_full (full : s.freeCount = 0) : s.afterDeparture n = (s.departedFrom n).joinWait n := by
  rw [afterDeparture_takes stays entry]
  exact takeEntry_of_full (departedFrom_empty s n) (by rw [departedFrom_lane]; exact mode)
    (by rw [departedFrom_lane]; exact stays) full

theorem afterDeparture_of_free (room : s.freeCount ≠ 0) (free : s.visit k = none)
    (first : ∀ j : Fin 64, j < k → s.visit j ≠ none) : s.afterDeparture n = { s with
      lanes := s.lanes.set n ((s.lane n).departed.opening k)
      visits := s.visits.set k { s.visits[k] with visit := some (.opened n s.time.minute) }
      freeCount := s.freeCount - 1
      openWait := s.openWait.filter (· != n)
      signs := s.signs.set n { s.sign n with abortSubject := none } } := by
  rw [afterDeparture_takes stays entry, takeEntry_of_free (s := s.departedFrom n) (departedFrom_empty s n)
    (by rw [departedFrom_lane]; exact mode) (by rw [departedFrom_lane]; exact stays) room free first, openVisit_eq,
    departedFrom_lane]
  simp [State.departedFrom]

end

/-- What a release outcome makes of a departing visit (R79). -/
theorem departed_eq (o : Option ReleaseOutcome) : departed o =
    (if o = some .turnAway ∨ o = some .holdTimeout then .rejected else .enRoute,
      if o = some .turnAway then some .turnAway else if o = some .holdTimeout then some .holdTimeout else none) := by
  rcases o with _ | _ | _ | _ <;> rfl

/-! ### The event -/

theorem takeLoop_of_resident (resident : s.Resident n v x) (p : Loop) (b : Bool) :
    s.takeLoop n p b = s.loopResident n v x p b := by
  simp only [State.takeLoop, residentVisit_eq_some.2 resident]

theorem takeLoop_of_empty (empty : (s.lane n).resident = none) (p : Loop) (b : Bool) :
    s.takeLoop n p b = s.loopEmpty n p b := by
  simp only [State.takeLoop, residentVisit_of_empty empty]

theorem takeExit_of_clear (seen : (s.lane n).exitSeen = true) (d : State) : s.takeExit n false d = d := by
  simp only [State.takeExit, seen, if_true, Bool.false_eq_true, if_false]

theorem takeExit_of_unseen (unseen : (s.lane n).exitSeen = false) (d : State) : s.takeExit n false d = s := by
  simp only [State.takeExit, unseen, Bool.false_eq_true, if_false]

theorem exec_loopEvent (power : s.prst = false) (changes : s.loops[n].get p ≠ b) :
    exec (.loopEvent n p b) s = .next ((s.setLoop n p b).takeLoop n p b).startJobs := by
  simp only [exec, execLoopEvent, if_neg changes, power, Bool.false_eq_true, if_false]

end Sys2Proof.Machine

open Sys2Proof Sys2Proof.Machine in
/-- Settles O34. -/
theorem loopEventsMoveTheVisitThroughTheLane : Obligations.LoopEventsMoveTheVisitThroughTheLane := by
  intro s n power level becomes lane l gone freed departs
  have ends {p : Loop} {b : Bool} {u : State}
      (takes : (s.setLoop n p b).takeLoop n p b = { u with loops := level p b }) : becomes p b u := by
    intro changes
    refine ⟨_, (exec_loopEvent power changes).trans (congrArg (fun w => Host.Outcome.next (State.startJobs w)) takes), ?_, ?_⟩
    · exact startJobs_eq { u with loops := level p b }
    · exact (startJobs_mayStart { u with loops := level p b }).of_signs rfl
  have clears : (s.setLoop n .exit false).loops[n].entry = s.loops[n].entry := by simp [State.setLoop, Loops.put]
  clear_value becomes
  have departing {link : Link} {visits : Vector VisitSlot 64}
      (takes : (s.setLoop n .exit false).takeLoop n .exit false
        = State.afterDeparture { s with loops := level .exit false, link := link, visits := visits } n)
      (others : ∀ k, s.visit k = none → visits[k] = s.visits[k])
      (opens : ∀ k, s.visit k ≠ none → visits[k].visit ≠ none) :
      departs { s with link := link, visits := visits, signs := freed } := by
    let d : State := { s with loops := level .exit false, link := link, visits := visits }
    have entry : (level .exit false)[n].entry = s.loops[n].entry := clears
    refine ⟨fun closing => ends (takes.trans ?_), fun stays leaves => ends (takes.trans ?_),
      fun stays occupied mode full => ends (takes.trans ?_), fun k stays occupied mode room free first => ends (takes.trans ?_)⟩
    · exact afterDeparture_of_closing (s := d) closing
    · exact afterDeparture_of_leaving (s := d) stays (leaves.imp_left entry.trans)
    · exact afterDeparture_of_full (s := d) stays (entry.trans occupied) mode full
    · have free_ : d.visit k = none := (congrArg VisitSlot.visit (others k free)).trans free
      rw [← others k free]
      exact afterDeparture_of_free (s := d) (k := k) stays (entry.trans occupied) mode room free_ fun j before => opens j (first j before)
  refine ⟨fun p b same => ?same, fun empty => ?empty, fun v x resident => ?resident⟩
  case same => simp only [exec, execLoopEvent, if_pos same]
  case empty =>
    have takes (p : Loop) (b : Bool) : (s.setLoop n p b).takeLoop n p b = (s.setLoop n p b).loopEmpty n p b :=
      takeLoop_of_empty (s := s.setLoop n p b) empty p b
    refine ⟨fun v mode stays still room free first => ends ((takes _ _).trans ?_),
      fun mode stays still full => ends ((takes _ _).trans ?_), fun shut => ends ((takes _ _).trans ?_),
      ends (takes _ _), fun b => ends (takes _ _), fun b still => ends ((takes _ _).trans ?_),
      fun releasing => ends ((takes _ _).trans ?_), fun releasing unseen => ends ((takes _ _).trans ?_),
      fun releasing seen => ?_⟩
    · have free_ : (s.setLoop n .entry true).LaneEmpty n := ⟨empty, still⟩
      refine (takeEntry_of_free free_ mode stays room free first).trans ?_
      rw [openVisit_eq]
      rfl
    · exact takeEntry_of_full (s := s.setLoop n .entry true) ⟨empty, still⟩ mode stays full
    · rcases shut with manual | closes | releasing
      · exact takeEntry_of_not (s := s.setLoop n .entry true) (.inl manual)
      · exact takeEntry_of_not (s := s.setLoop n .entry true) (.inr closes)
      · exact takeEntry_of_releasing (s := s.setLoop n .entry true) empty releasing
    · exact if_neg (Bool.eq_false_iff.1 still)
    · exact if_pos releasing
    · exact (if_pos releasing).trans (takeExit_of_unseen (s := s.setLoop n .exit false) unseen _)
    · exact departing (link := s.link) (visits := s.visits) ((takes _ _).trans ((if_pos releasing).trans
        (takeExit_of_clear (s := s.setLoop n .exit false) seen _))) (fun _ _ => rfl) fun _ => id
  case resident =>
    have takes (p : Loop) (b : Bool) : (s.setLoop n p b).takeLoop n p b = (s.setLoop n p b).loopResident n v x p b :=
      takeLoop_of_resident (s := s.setLoop n p b) resident p b
    refine ⟨ends (takes _ _), ends (takes _ _), ends ((takes _ _).trans ?_), fun other => ends ((takes _ _).trans ?_),
      fun entering => ends ((takes _ _).trans ?_), fun b other => ends ((takes _ _).trans ?_),
      fun releasing => ends ((takes _ _).trans ?_), fun releasing unseen => ends ((takes _ _).trans ?_),
      fun releasing seen => ?_⟩
    · simp only [State.loopResident, Bool.false_eq_true, false_and, if_false]
      rfl
    · exact if_neg (mt And.right other)
    · refine (if_pos ⟨rfl, entering⟩).trans ?_
      rw [modVisit_eq (s := s.setLoop n .stop true) resident.2]
      rfl
    · exact if_neg other
    · exact if_pos releasing
    · exact (if_pos releasing).trans (takeExit_of_unseen (s := s.setLoop n .exit false) unseen _)
    · have here : (s.setLoop n .exit false).visit v = some x := resident.2
      have departs_ := takes .exit false
      let y : Visit := { x with
        state := if x.outcome = some .turnAway ∨ x.outcome = some .holdTimeout then .rejected else .enRoute
        rejectReason := if x.outcome = some .turnAway then some .turnAway
          else if x.outcome = some .holdTimeout then some .holdTimeout else none
        outcome := none }
      rw [show (s.setLoop n .exit false).loopResident n v x .exit false
          = (s.setLoop n .exit false).departVisit n v from (if_pos releasing).trans
            (takeExit_of_clear (s := s.setLoop n .exit false) seen _), State.departVisit, modVisit_eq here, departed_eq] at departs_
      refine departing departs_ (fun k free => ?_) fun k opened => ?_
      · have other : k ≠ v := fun is => Option.some_ne_none x (by rw [← resident.2, ← is, free])
        exact Vector.getElem_set_ne _ _ (fun same => other (Fin.ext same.symm))
      · by_cases is : k = v
        · subst is
          exact fun gone => Option.some_ne_none y ((putVisit_visit s k y).symm.trans gone)
        · exact fun gone => opened ((putVisit_visit_other is y).symm.trans gone)
end

section
/-!
PROOFS. What a command does to the book, the lanes' visits and the yard, said once as a chain of acts: a calm change, an
update of the book, and the ten ways in which a visit opens, is reviewed, waits, is placed, leaves its lane, has a leg done
or closes. The steps' invariants (O56 to O59) are proved act by act.
-/

namespace Sys2Proof.Machine

variable {s t u w : State} {n : Lane} {v : Fin 64} {x y z : Visit} {T : Prop}

/-! ### Calm changes -/

/-- A visit that has not been placed yet (R150, R172). -/
def Visit.Unplaced (x : Visit) : Prop :=
  x.state = .entering ∨ x.state = .checking ∨ x.state = .held ∨ x.state = .yardWait

/-- A visit that is still under review (R74, R152). -/
def Visit.Reviewed (x : Visit) : Prop := x.state = .entering ∨ x.state = .checking ∨ x.state = .held

theorem Visit.Reviewed.unplaced (h : x.Reviewed) : x.Unplaced := h.imp_right (Or.imp_right .inl)

theorem Visit.Reviewed.resident (h : x.Reviewed) : x.state.isResident = true := by
  rcases h with is | is | is <;> rw [is] <;> rfl

theorem Visit.Reviewed.ne_yardWait (h : x.Reviewed) : x.state ≠ .yardWait := by
  rcases h with is | is | is <;> rw [is] <;> nofun

/-- A visit changed in nothing that the lanes and the yard count by. -/
structure Visit.Calm (x y : Visit) : Prop where
  lane : y.lane = x.lane
  legs : y.legs.map Leg.unjudged = x.legs.map Leg.unjudged
  resident : y.state.isResident = x.state.isResident
  unplaced : y.Unplaced → x.Unplaced

/-- A change that leaves the book, the ring and what the yard reserves, and opens, closes or moves no visit; a lane that
has no visit may lose its mark of one, and a queue and a list of waiting lanes may get shorter. -/
structure Calm (s t : State) : Prop where
  book : t.book = s.book
  ring : t.ring = s.ring
  residents : ∀ n, (t.lane n).resident = (s.lane n).resident
    ∨ ((t.lane n).resident = none ∧ ∀ v, (s.lane n).resident = some v → s.visit v = none)
  gens : ∀ v, t.handle v = s.handle v
  closed : ∀ v, s.visit v = none → t.visit v = none
  visits : ∀ v x, s.visit v = some x → ∃ y, t.visit v = some y ∧ x.Calm y
    ∧ (x.state = .yardWait → y.state ≠ .yardWait → s.handle v ∉ t.yard.queue)
  waits : ∀ n ∈ t.openWait, n ∈ s.openWait ∨ (t.lane n).resident = none
  reserved : ∀ b : Fin 48, t.yard.blocks[b].reserved = s.yard.blocks[b].reserved
  places : ∀ b : Fin 4, t.yard.bays[b].places = s.yard.bays[b].places
  queue : t.yard.queue.Sublist s.yard.queue

theorem Visit.Calm.refl (x : Visit) : x.Calm x := ⟨rfl, rfl, rfl, id⟩

theorem Visit.Calm.trans (h : x.Calm y) (g : y.Calm z) : x.Calm z :=
  ⟨g.lane.trans h.lane, g.legs.trans h.legs, g.resident.trans h.resident, h.unplaced ∘ g.unplaced⟩

/-- A visit whose lane, legs and state stay. -/
theorem Visit.Calm.of_same (lane : y.lane = x.lane) (legs : y.legs = x.legs) (state : y.state = x.state) : x.Calm y :=
  ⟨lane, by rw [legs], by rw [state], fun h => by rwa [Visit.Unplaced, state] at h⟩

/-- A visit that moves on in its lane, past its review or within it. -/
theorem Visit.Calm.of_moved (lane : y.lane = x.lane) (legs : y.legs = x.legs)
    (resident : y.state.isResident = x.state.isResident) (unplaced : y.Unplaced → x.Unplaced) : x.Calm y :=
  ⟨lane, by rw [legs], resident, unplaced⟩

theorem Calm.trans (h : Calm s t) (g : Calm t u) : Calm s u where
  book := g.book.trans h.book
  ring := g.ring.trans h.ring
  residents n := by
    rcases g.residents n with same | ⟨gone, open_⟩
    · rcases h.residents n with same' | ⟨gone, open_⟩
      · exact .inl (same.trans same')
      · exact .inr ⟨same.trans gone, open_⟩
    · refine .inr ⟨gone, fun v is => ?_⟩
      rcases h.residents n with same' | ⟨-, open_'⟩
      · by_contra opened
        obtain ⟨x, here⟩ := Option.ne_none_iff_exists'.1 opened
        obtain ⟨y, there, -⟩ := h.visits v x here
        rw [open_ v (same'.trans is)] at there
        cases there
      · exact open_' v is
  gens v := (g.gens v).trans (h.gens v)
  closed v is := g.closed v (h.closed v is)
  visits v x here := by
    obtain ⟨y, there, calm, left⟩ := h.visits v x here
    obtain ⟨z, there', calm', left'⟩ := g.visits v y there
    refine ⟨z, there', calm.trans calm', fun waits moved mem => ?_⟩
    by_cases still : y.state = .yardWait
    · exact left' still moved (h.gens v ▸ mem)
    · exact left waits still (g.queue.subset mem)
  waits n mem := by
    rcases g.waits n mem with mem | none
    · rcases h.waits n mem with mem | none
      · exact .inl mem
      · rcases g.residents n with same | ⟨none', -⟩
        · exact .inr (same.trans none)
        · exact .inr none'
    · exact .inr none
  reserved b := (g.reserved b).trans (h.reserved b)
  places b := (g.places b).trans (h.places b)
  queue := g.queue.trans h.queue

/-- A change of nothing that the acts speak of. -/
theorem Calm.of_eq (book : t.book = s.book) (ring : t.ring = s.ring) (lanes : t.lanes = s.lanes)
    (openWait : t.openWait = s.openWait) (visits : t.visits = s.visits) (yard : t.yard = s.yard) : Calm s t where
  book := book
  ring := ring
  residents n := .inl (by rw [State.lane, lanes, State.lane])
  gens v := by rw [State.handle, visits, State.handle]
  closed v is := by rw [State.visit, visits]; exact is
  visits v x here := ⟨x, by rw [State.visit, visits]; exact here, .refl x, fun is other => absurd is other⟩
  waits n mem := .inl (openWait ▸ mem)
  reserved b := by rw [yard]
  places b := by rw [yard]
  queue := by rw [yard]

theorem Calm.refl (s : State) : Calm s s := .of_eq rfl rfl rfl rfl rfl rfl

/-- A change of the signs alone. -/
theorem Calm.of_signs (same : t = { s with signs := t.signs }) : Calm s t := by
  rw [same]
  exact .of_eq rfl rfl rfl rfl rfl rfl

theorem Calm.foldl {α : Type} {f : State → α → State} (h : ∀ s a, Calm s (f s a)) (l : List α) (s : State) :
    Calm s (l.foldl f s) := by
  induction l generalizing s with
  | nil => exact .refl s
  | cons a l ih => exact (h s a).trans (ih _)

theorem Calm.ite {p : Prop} [Decidable p] (ht : Calm s t) (hu : Calm s u) : Calm s (if p then t else u) := by
  split <;> assumption

theorem Calm.modLane {f : LaneUnit → LaneUnit} (s : State) (n : Lane)
    (same : (f (s.lane n)).resident = (s.lane n).resident) : Calm s (s.modLane n f) where
  book := rfl
  ring := rfl
  residents m := .inl (by
    by_cases is : m = n
    · subst is
      rw [modLane_lane_same, same]
    · rw [modLane_lane_other _ _ is])
  gens _ := rfl
  closed _ is := is
  visits v x here := ⟨x, here, .refl x, fun is other => absurd is other⟩
  waits _ mem := .inl mem
  reserved _ := rfl
  places _ := rfl
  queue := .refl _

/-- A visit's record replaced. -/
theorem Calm.putVisit (here : s.visit v = some x) (calm : x.Calm y)
    (left : x.state = .yardWait → y.state ≠ .yardWait → s.handle v ∉ s.yard.queue) : Calm s (s.putVisit v y) where
  book := rfl
  ring := rfl
  residents _ := .inl rfl
  gens m := putVisit_handle s v m y
  closed m is := by
    by_cases same : m = v
    · subst same
      rw [here] at is
      cases is
    · rw [putVisit_visit_other same, is]
  visits m z there := by
    by_cases same : m = v
    · subst same
      cases here.symm.trans there
      exact ⟨y, putVisit_visit s m y, calm, left⟩
    · exact ⟨z, (putVisit_visit_other same y).trans there, .refl z, fun is other => absurd is other⟩
  waits _ mem := .inl mem
  reserved _ := rfl
  places _ := rfl
  queue := .refl _

theorem modVisit_of_closed (here : s.visit v = none) (f : Visit → Visit) : s.modVisit v f = s := by
  have slot : ({ s.visits[v] with visit := s.visits[v].visit.map f } : VisitSlot) = s.visits[v] := by
    rw [show s.visits[v].visit = none from here]
    exact congrArg (VisitSlot.mk s.visits[v].gen) here.symm
  rw [State.modVisit, slot]
  simp

theorem Calm.modVisit {f : Visit → Visit} (s : State) (v : Fin 64) (calm : ∀ x, s.visit v = some x → x.Calm (f x))
    (left : ∀ x, s.visit v = some x → x.state = .yardWait → (f x).state ≠ .yardWait → s.handle v ∉ s.yard.queue) :
    Calm s (s.modVisit v f) := by
  cases here : s.visit v with
  | none =>
    rw [modVisit_of_closed here]
    exact .refl s
  | some x =>
    rw [modVisit_put here]
    exact .putVisit here (calm x here) (left x here)

/-- A visit's record changed in neither its lane, its legs nor its state. -/
theorem Calm.keepVisit {f : Visit → Visit} (s : State) (v : Fin 64)
    (same : ∀ x, (f x).lane = x.lane ∧ (f x).legs = x.legs ∧ (f x).state = x.state := by exact fun _ => ⟨rfl, rfl, rfl⟩) :
    Calm s (s.modVisit v f) := by
  refine .modVisit s v (fun x _ => ?_) fun x _ is other => ?_
  · obtain ⟨lane, legs, state⟩ := same x
    exact .of_same lane legs state
  · rw [(same x).2.2] at other
    exact absurd is other

/-! ### The calm functions of the model -/

section
variable (s : State)

theorem Calm.modSign (n : Lane) (f : Sign → Sign) : Calm s (s.modSign n f) := .of_eq rfl rfl rfl rfl rfl rfl

theorem Calm.modGrade (n : Lane) (f : GradeLane → GradeLane) : Calm s (s.modGrade n f) := .of_eq rfl rfl rfl rfl rfl rfl

theorem Calm.modLink (f : Link → Link) : Calm s (s.modLink f) := .of_eq rfl rfl rfl rfl rfl rfl

theorem Calm.join (c : Change) : Calm s (s.join c) := .of_eq rfl rfl rfl rfl rfl rfl

theorem Calm.loadDwell (n : Lane) (form : TimerForm) (k : LimitKind) : Calm s (s.loadDwell n form k) := .modLane s n rfl

theorem Calm.stopDwell (n : Lane) : Calm s (s.stopDwell n) := .modLane s n rfl

theorem Calm.takeExpiry (n : Lane) : Calm s (s.takeExpiry n) := .modLane s n rfl

theorem Calm.setMode (n : Lane) (m : Mode) : Calm s (s.setMode n m) := .modLane s n rfl

theorem Calm.completeClosing (n : Lane) : Calm s (s.completeClosing n) := (Calm.modLane s n rfl).trans (.join _ _)

theorem Calm.closeIf (n : Lane) : Calm s (s.closeIf n) := .ite (.completeClosing s n) (.refl s)

theorem Calm.startReleasing (n : Lane) : Calm s (s.startReleasing n) := (Calm.modLane s n rfl).trans (.loadDwell _ n _ _)

theorem Calm.startJobOn (refresh : Bool) (n : Lane) : Calm s (startJobOn refresh n s) := .of_signs (startJobOn_eq refresh n s)

theorem Calm.startJobs : Calm s s.startJobs := .of_signs (startJobs_eq s)

/-- A list of waiting lanes that changes alone. -/
theorem Calm.of_openWait {l : List Lane} (waits : ∀ n ∈ l, n ∈ s.openWait ∨ (s.lane n).resident = none) :
    Calm s { s with openWait := l } :=
  { Calm.refl s with waits := waits }

theorem Calm.leaveWait (n : Lane) : Calm s (s.leaveWait n) :=
  .of_openWait s fun _ mem => .inl (List.mem_of_mem_filter mem)

theorem Calm.joinWait {n : Lane} (empty : (s.lane n).resident = none) : Calm s (s.joinWait n) := by
  refine .of_openWait s fun m mem => ?_
  split at mem
  · exact .inl mem
  · rcases List.mem_append.1 mem with mem | mem
    · exact .inl mem
    · rw [List.mem_singleton.1 mem]
      exact .inr empty

/-- A yard that changes in none of its reservations. -/
theorem Calm.of_yard {y : Yard} (reserved : ∀ b : Fin 48, y.blocks[b].reserved = s.yard.blocks[b].reserved)
    (places : ∀ b : Fin 4, y.bays[b].places = s.yard.bays[b].places) (queue : y.queue.Sublist s.yard.queue) :
    Calm s { s with yard := y } :=
  { Calm.refl s with
    visits := fun _ x here => ⟨x, here, .refl x, fun is other => absurd is other⟩
    reserved := reserved
    places := places
    queue := queue }

theorem Calm.leaveQueue (h : Handle) : Calm s (s.leaveQueue h) :=
  .of_yard s (fun _ => rfl) (fun _ => rfl) (List.filter_sublist)

/-! Moves of a visit within its lane (R77 to R79). -/

section
variable (here : s.visit v = some x)
include here

theorem Calm.enterHeld (n : Lane) (unplaced : x.Unplaced) (left : x.state = .yardWait → s.handle v ∉ s.yard.queue) :
    Calm s (s.enterHeld n v) := by
  unfold State.enterHeld
  refine ((Calm.modVisit s v (fun y there => ?_) fun y there waits _ => ?_).trans (.loadDwell _ n _ _)).trans (.join _ _)
  · cases here.symm.trans there
    refine .of_moved rfl rfl ?_ fun _ => unplaced
    rcases unplaced with is | is | is | is <;> rw [is] <;> rfl
  · cases here.symm.trans there
    exact left waits

theorem Calm.enterReleasing (n : Lane) (resident : x.state.isResident = true) (other : x.state ≠ .yardWait) :
    Calm s (s.enterReleasing n v) := by
  unfold State.enterReleasing
  refine ((Calm.modVisit s v (fun y there => ?_) fun y there waits _ => ?_).trans (.startReleasing _ n)).trans
    (.modSign _ n _)
  · cases here.symm.trans there
    refine .of_moved rfl rfl resident.symm fun h => ?_
    rcases h with is | is | is | is <;> cases is
  · cases here.symm.trans there
    exact absurd waits other

end

theorem Calm.report (n : Lane) : Calm s (s.report n) := by
  unfold State.report
  split
  case h_1 v x is =>
    obtain ⟨resident, state⟩ := residentIn_eq_some.1 is
    have marked := Calm.modSign s n fun g => { g with reportMark := true }
    exact .ite (.refl s) (marked.trans (.enterReleasing (s.modSign n fun g => { g with reportMark := true })
      (x := x) resident.2 n (by rw [state]; rfl) (by rw [state]; nofun)))
  case h_2 => exact .refl s

/-! The Sign Units (R189 to R199). -/

theorem Calm.completeJob (n : Lane) (j : Job) : Calm s (s.completeJob n j) := by
  unfold State.completeJob
  exact ((Calm.modSign s n _).trans (.ite (.report _ n) (.refl _))).trans (.startJobOn _ false n)

theorem Calm.acceptLine (n : Lane) (j : Job) : Calm s (s.acceptLine n j) := by
  unfold State.acceptLine
  exact (Calm.modSign s n _).trans (.ite (.modSign _ n _) (.completeJob _ n j))

theorem Calm.markSignFault (h : Option Handle) : Calm s (s.markSignFault h) := by
  unfold State.markSignFault
  split
  · exact .refl s
  · exact .ite ((Calm.keepVisit s _).trans (.join _ _)) (.refl s)

theorem Calm.reportLoss (n : Lane) (j : Job) : Calm s (s.reportLoss n j) := by
  unfold State.reportLoss
  split
  · exact .ite (.report s n) (.refl s)
  · exact .refl s

theorem Calm.failJob (n : Lane) (j : Job) : Calm s (s.failJob n j) := by
  rw [failJob_eq]
  exact ((Calm.modSign s n _).trans (.markSignFault _ _)).trans (.reportLoss _ n j)

theorem Calm.takeReply (n : Lane) (r : Reply) : Calm s (s.takeReply n r) := by
  unfold State.takeReply
  split
  · exact .ite (.ite (.acceptLine s n _) (.failJob s n _)) (.refl s)
  all_goals exact .refl s

theorem Calm.refreshSign (n : Lane) : Calm s (s.refreshSign n) := by
  unfold State.refreshSign
  split
  · exact .refl s
  · exact (Calm.modSign s n _).trans (.startJobOn _ false n)
  · split
    · exact .refl s
    · exact .refl s
    · exact .modSign s n _
    · exact .startJobOn s true n

theorem Calm.setSign (n : Lane) (r : SignReq) : Calm s (s.setSign n r) := by
  unfold State.setSign State.switchSign
  exact ((Calm.modSign s n _).trans (.ite ((Calm.modSign _ n _).trans (.ite (.report _ n) (.refl _))) (.refl _))).trans
    (.startJobs _)

/-! The lane links (R51 to R56, R122). -/

theorem Calm.takePlate (v : Fin 64) (t : Text) (c : Nat) : Calm s (s.modVisit v fun y => y.takePlate t c) := by
  refine .keepVisit s v fun x => ?_
  unfold Visit.takePlate
  split <;> exact ⟨rfl, rfl, rfl⟩

theorem Calm.takeContainer (v : Fin 64) (p : Pos) (t : Text) (c : Nat) :
    Calm s (s.modVisit v fun y => y.takeContainer p t c) := by
  refine .keepVisit s v fun x => ?_
  unfold Visit.takeContainer
  split <;> exact ⟨rfl, rfl, rfl⟩

theorem Calm.takeSeal (v : Fin 64) (p : Pos) (t : Text) (c : Nat) : Calm s (s.modVisit v fun y => y.takeSeal p t c) := by
  refine .keepVisit s v fun x => ?_
  unfold Visit.takeSeal
  split <;> exact ⟨rfl, rfl, rfl⟩

theorem Calm.setFlag (n : Lane) (k : FlagKind) : Calm s (s.setFlag n k) := (Calm.modLane s n rfl).trans (.join _ _)

theorem Calm.markLoss (n : Lane) : Calm s (s.markLoss n) := by
  unfold State.markLoss
  split
  · exact .keepVisit s _
  · exact .refl s

theorem Calm.frameArrives (n : Lane) (chars : List RxChar) : Calm s (s.frameArrives n chars) := by
  unfold State.frameArrives
  split
  · exact .setFlag s n _
  · exact (Calm.setFlag s n _).trans (.markLoss _ n)
  · split
    · exact .setFlag s n _
    · exact .ite ((Calm.setFlag s n _).trans (.markLoss _ n)) (.modLane s n rfl)

theorem Calm.takeScan (n : Lane) (x : Visit) (c : Scan) : Calm s (s.takeScan n x c) := .ite (.modGrade s n _) (.modGrade s n _)

theorem Calm.requestIdent (n : Lane) (v : Fin 64) (refs : List Text) : Calm s (s.requestIdent n v refs) :=
  (Calm.keepVisit s v).trans (.of_eq rfl rfl rfl rfl rfl rfl)

theorem Calm.handOff (n : Lane) (f : LaneFrame) : Calm s (s.handOff n f) := by
  unfold State.handOff
  split
  · exact .setFlag s n _
  · split
    · exact .takePlate s _ _ _
    · exact .takeContainer s _ _ _ _
    · exact .takeSeal s _ _ _ _
    · exact .takeScan s n _ _
    · exact .ite (.requestIdent s n _ _) (.setFlag s n _)

theorem Calm.takeFrame (n : Lane) : Calm s (s.takeFrame n) := by
  unfold State.takeFrame
  split
  · exact .refl s
  · exact .ite (.refl s) ((Calm.modLane s n rfl).trans (.handOff _ n _))

/-! The engines and the grading (R9 to R11, R124, R125, R133 to R136). -/

theorem Calm.grant : Calm s s.grant := by
  unfold State.grant
  split
  · exact .refl s
  · split
    · unfold State.grantTo
      split
      · simp only
        split
        · exact .of_eq rfl rfl rfl rfl rfl rfl
        · exact .refl s
      · exact .of_eq rfl rfl rfl rfl rfl rfl
    · exact .refl s

theorem Calm.gradingTake : Calm s s.gradingTake := by
  unfold State.gradingTake
  split
  · exact .refl s
  · split
    · exact .refl s
    · split
      · exact .refl s
      · exact .of_eq rfl rfl rfl rfl rfl rfl

theorem Calm.closeGrading (n : Lane) (v : Fin 64) : Calm s (s.closeGrading n v) :=
  (Calm.keepVisit s v).trans (.modGrade _ n _)

theorem Calm.force (v : Fin 64) : Calm s (s.modVisit v Visit.force) :=
  .keepVisit s v

theorem Calm.settleNotice (n : Lane) (v : Fin 64) : Calm s (s.settleNotice n v) := by
  unfold State.settleNotice
  split
  · exact .refl s
  · refine .ite (.ite ?_ ((Calm.force s v).trans (.closeGrading _ n v))) (.refl s)
    exact (Calm.keepVisit s v).trans (.modGrade _ n _)

theorem Calm.earlyTest (n : Lane) (v : Fin 64) : Calm s (s.earlyTest n v) := by
  unfold State.earlyTest
  split
  · exact .refl s
  · exact .ite (.closeGrading s n v) (.refl s)

theorem Calm.applyScan (n : Lane) (c : Scan) : Calm s (s.applyScan n c) := by
  unfold State.applyScan
  split
  · exact .refl s
  · exact .ite (.ite (.modGrade s n _) (.keepVisit s _)) (.refl s)

theorem Calm.closeAllClosing (n : Lane) : Calm s (s.closeAllClosing n) := by
  refine .foldl (fun s v => ?_) _ s
  unfold closeClosing
  split
  · exact .refl s
  · exact .ite ((Calm.force s v).trans (.closeGrading _ n v)) (.refl s)

/-! Time and settings. -/

theorem Calm.forLanes {f : Lane → State → State} (h : ∀ n s, Calm s (f n s)) : Calm s (Machine.forLanes f s) :=
  .foldl (fun s n => h n s) _ s

theorem Calm.tickBoundary : Calm s s.tickBoundary := by
  have lanes : Calm s (Machine.forLanes (fun n t => (t.modLane n LaneUnit.tick).modSign n Sign.tick) s) := by
    refine .forLanes s fun n t => (Calm.modLane t n ?_).trans (.modSign _ n _)
    rw [LaneUnit.tick_eq]
  unfold State.tickBoundary
  generalize Machine.forLanes (fun n t => (t.modLane n LaneUnit.tick).modSign n Sign.tick) s = t at lanes ⊢
  exact lanes.trans (.of_eq rfl rfl rfl rfl rfl rfl)

theorem Calm.clearCounts : Calm s s.clearCounts := .forLanes s fun n t => .modGrade t n _

theorem Calm.modBlock {f : Block → Block} (b : Fin 48) (same : (f s.yard.blocks[b]).reserved = s.yard.blocks[b].reserved) :
    Calm s (s.modBlock b f) := by
  refine .of_yard s (fun c => ?_) (fun _ => rfl) (.refl _)
  by_cases is : c = b
  · subst is
    simpa using same
  · simp [Fin.val_ne_of_ne (Ne.symm is)]

theorem Calm.modBay {f : Bay → Bay} (b : Fin 4) (same : (f s.yard.bays[b]).places = s.yard.bays[b].places) :
    Calm s (s.modBay b f) := by
  refine .of_yard s (fun _ => rfl) (fun c => ?_) (.refl _)
  by_cases is : c = b
  · subst is
    simpa using same
  · simp [Fin.val_ne_of_ne (Ne.symm is)]

end

end Sys2Proof.Machine
end

section
/-!
PROOFS. The acts (see the file before): every function of the model that opens, reviews, places, moves or closes a visit is a
chain of them.
-/

namespace Sys2Proof.Machine

variable {s t u w : State} {n : Lane} {v : Fin 64} {x y z : Visit} {T : Prop}

/-! ### Updates of the book and the ring -/

/-- An update of the book and the ring by a visit, a request or a retirement (R12 to R22, R28 to R31, R37 to R39, R92). -/
inductive BookMove (s : State) : State → Prop
  | revert (l : Leg) (h : Handle) : BookMove s (s.revertBooking l h)
  | admission (l : Leg) (h : Handle) : BookMove s (s.admitBooking l h)
  | release (l : Leg) (h : Handle) : BookMove s (s.releaseBooking l h)
  | form (h : Handle) (a : Nat) (ref : Text) : BookMove s (s.formLeg h a ref).1
  | complete (req : BookReq) : BookMove s (completeBooking s req).state
  | retire : BookMove s s.retireOne
  | plan (r : PlanReq) : BookMove s (servePlan r s).state
  | quotas (r : Nat × List (Option Nat)) : BookMove s (serveWindowSet r s).state
  | defaults (q : PerKind) : BookMove s (serveDefaultQuota q s).state
  | allowances (a : AllowanceReq) : BookMove s { s with ring := s.ring.setAllowances a }

/-- A change of the book and the ring alone. -/
def OnBook (s t : State) : Prop := t = { s with book := t.book, ring := t.ring }

theorem OnBook.refl (s : State) : OnBook s s := rfl

theorem formLeg_onBook (s : State) (h : Handle) (a : Nat) (ref : Text) : OnBook s (s.formLeg h a ref).1 := by
  unfold State.formLeg
  split
  · exact .refl s
  · split
    · dsimp only
      unfold State.claim
      split <;> exact rfl
    all_goals exact .refl s

theorem freeBooking_onBook (s : State) (slot : Nat) (b : Booking) : OnBook s (freeBooking s slot b) := rfl

theorem completeBooking_onBook (s : State) (req : BookReq) : OnBook s (completeBooking s req).state := by
  cases req with
  | create r =>
    change OnBook s (completeCreate s r).state
    unfold completeCreate
    split <;> exact rfl
  | amend r =>
    change OnBook s (completeAmend s r).state
    unfold completeAmend
    split
    · exact .refl s
    · split
      · exact .refl s
      · split
        · exact .refl s
        · split <;> exact rfl
  | cancel ref =>
    change OnBook s (completeCancel s ref).state
    unfold completeCancel
    split
    · exact .refl s
    · split
      · exact .refl s
      · exact .refl s
      · exact freeBooking_onBook s _ _
      · exact freeBooking_onBook s _ _
  | retire ref =>
    change OnBook s (completeRetire s ref).state
    unfold completeRetire
    split
    · exact .refl s
    · split
      · exact .refl s
      · exact .refl s
      · exact freeBooking_onBook s _ _
      · split
        · exact .refl s
        · split
          · exact .refl s
          · exact freeBooking_onBook s _ _
  | query ref =>
    change OnBook s (completeQuery s ref).state
    unfold completeQuery
    split <;> exact .refl s
  | scan filter start =>
    change OnBook s (completeScan s filter start).state
    unfold completeScan
    split
    · exact .refl s
    · split <;> exact .refl s

theorem BookMove.onBook (h : BookMove s t) : OnBook s t := by
  cases h with
  | revert l h => exact (revertBooking_actsOnBook l h).frame s
  | admission l h => exact (admitBooking_actsOnBook l h).frame s
  | release l h => exact (releaseBooking_actsOnBook l h).frame s
  | form h a ref => exact formLeg_onBook s h a ref
  | complete req => exact completeBooking_onBook s req
  | retire =>
    unfold State.retireOne
    split <;> exact rfl
  | plan r =>
    unfold servePlan
    split <;> exact rfl
  | quotas r =>
    unfold serveWindowSet
    split
    · exact .refl s
    · split <;> exact rfl
  | defaults q =>
    unfold serveDefaultQuota
    split <;> exact rfl
  | allowances a => exact rfl

/-! ### The acts -/

/-- What an act beside the lanes leaves alone. -/
structure Aside (s t : State) : Prop where
  book : t.book = s.book
  ring : t.ring = s.ring
  openWait : t.openWait = s.openWait
  residents : ∀ n, (t.lane n).resident = (s.lane n).resident

/-- What an act by which a visit leaves a lane leaves alone. -/
structure Leaves (s t : State) (n : Lane) : Prop where
  book : t.book = s.book
  ring : t.ring = s.ring
  openWait : t.openWait = s.openWait
  free : (t.lane n).resident = none
  others : ∀ m, m ≠ n → (t.lane m).resident = (s.lane m).resident

/-- One act. `T` stands where the visits' states may be relied on: then a reviewed visit is one still under review. -/
inductive Act (T : Prop) (s t : State) : Prop
  | calm (h : Calm s t)
  | book (h : BookMove s t)
  /-- A visit's legs are formed, judged or dropped, and no destination is given. -/
  | review (v : Fin 64) (x y : Visit) (here : s.visit v = some x) (aside : Aside s t) (yard : t.yard = s.yard)
      (visits : t.visits = s.visits.set v { s.visits[v] with visit := some y }) (lane : y.lane = x.lane)
      (was : x.state.isResident = true) (stays : y.state.isResident = true)
      (legs : ∀ l ∈ y.legs, ∀ d, l.dest = some d → ∃ k ∈ x.legs, k.dest = some d) (early : T → x.Reviewed)
  /-- An admitted visit that is not placed waits (R172). -/
  | wait (v : Fin 64) (x y : Visit) (here : s.visit v = some x) (aside : Aside s t)
      (yard : t.yard = { s.yard with queue := s.yard.queue ++ [s.handle v] })
      (visits : t.visits = s.visits.set v { s.visits[v] with visit := some y }) (lane : y.lane = x.lane)
      (legs : y.legs = x.legs) (state : y.state = .yardWait) (early : x.Reviewed)
  /-- An admitted visit is placed (R168). -/
  | place (v : Fin 64) (x y : Visit) (dests : List (Option Dest)) (here : s.visit v = some x) (aside : Aside s t)
      (given : s.placeLegs [] [] x.legs = some dests) (yard : t.yard = s.yard.committed (s.handle v) x.legs dests)
      (visits : t.visits = s.visits.set v { s.visits[v] with visit := some y }) (lane : y.lane = x.lane)
      (legs : y.legs = List.zipWith Leg.setDest x.legs dests) (state : y.state = .directing) (early : x.Reviewed)
  | retry (is : t = s.retry)
  /-- A visit leaves its lane (R79). -/
  | depart (n : Lane) (v : Fin 64) (x y : Visit) (resident : s.Resident n v x) (releasing : x.state = .releasing)
      (leaves : Leaves s t n) (yard : t.yard = s.yard)
      (visits : t.visits = s.visits.set v { s.visits[v] with visit := some y }) (lane : y.lane = x.lane)
      (legs : y.legs = x.legs) (gone : y.state.isResident = false)
  /-- A visit is rejected in its lane (R83, R85, R88). -/
  | reject (n : Lane) (v : Fin 64) (x : Visit) (why : RejectReason) (resident : s.Resident n v x) (leaves : Leaves s t n)
      (yard : t.yard = { s.yard.givenBack (s.handle v) x.legs with queue := s.yard.queue.filter (· != s.handle v) })
      (visits : t.visits = s.visits.set v { s.visits[v] with visit := some (x.rejected why) })
  /-- A lane opens a visit (R71, R72). -/
  | opens (n : Lane) (v : Fin 64) (y : Visit) (free : s.visit v = none)
      (spot : (s.lane n).resident = none ∨ n ∈ s.openWait) (book : t.book = s.book) (ring : t.ring = s.ring)
      (yard : t.yard = s.yard) (openWait : t.openWait = s.openWait.filter (· != n))
      (visits : t.visits = s.visits.set v { s.visits[v] with visit := some y }) (lane : y.lane = n)
      (legs : y.legs = []) (state : y.state = .entering) (resident : (t.lane n).resident = some v)
      (others : ∀ m, m ≠ n → (t.lane m).resident = (s.lane m).resident)
  /-- A visit that has left is closed (R87). -/
  | close (v : Fin 64) (x : Visit) (here : s.visit v = some x) (gone : x.state.isResident = false) (aside : Aside s t)
      (yard : t.yard = s.yard.givenBack (s.handle v) x.legs) (visits : t.visits = s.visits.set v ⟨s.visits[v].gen + 1, none⟩)
  /-- A leg is done (R177). -/
  | finish (v : Fin 64) (x : Visit) (i : Nat) (l : Leg) (here : s.visit v = some x) (aside : Aside s t)
      (leg : x.leg i = some l) (can : l.canFinish x = true) (yard : t.yard = (s.convertLeg (s.handle v) i l).yard)
      (visits : t.visits = s.visits.set v { s.visits[v] with
        visit := some { x with legs := x.legs.set (i - 1) { l with done := true } } })
  | reset (book : t.book = State.reset.book) (ring : t.ring = State.reset.ring) (lanes : t.lanes = State.reset.lanes)
      (openWait : t.openWait = []) (visits : t.visits = State.reset.visits) (yard : t.yard = State.reset.yard)

/-- A chain of acts. -/
def Acts (T : Prop) : State → State → Prop := Relation.ReflTransGen (Act T)

theorem Acts.refl (s : State) : Acts T s s := Relation.ReflTransGen.refl

theorem Acts.trans (h : Acts T s t) (g : Acts T t u) : Acts T s u := Relation.ReflTransGen.trans h g

theorem Act.acts (h : Act T s t) : Acts T s t := .single h

theorem Calm.acts (h : Calm s t) : Acts T s t := (Act.calm h).acts

theorem BookMove.acts (h : BookMove s t) : Acts T s t := (Act.book h).acts

theorem Acts.foldl {α : Type} {f : State → α → State} (h : ∀ s a, Acts T s (f s a)) (l : List α) (s : State) :
    Acts T s (l.foldl f s) := by
  induction l generalizing s with
  | nil => exact .refl s
  | cons a l ih => exact (h s a).trans (ih _)

theorem Acts.forLanes {f : Lane → State → State} (h : ∀ n s, Acts T s (f n s)) (s : State) :
    Acts T s (Machine.forLanes f s) := Acts.foldl (fun s n => h n s) _ s

theorem Acts.ite {p : Prop} [Decidable p] (ht : Acts T s t) (hu : Acts T s u) : Acts T s (if p then t else u) := by
  split <;> assumption

theorem Aside.of_eq (book : t.book = s.book) (ring : t.ring = s.ring) (openWait : t.openWait = s.openWait)
    (lanes : t.lanes = s.lanes) : Aside s t :=
  ⟨book, ring, openWait, fun n => by rw [State.lane, lanes, State.lane]⟩

theorem Aside.of_lane {l : LaneUnit} (book : t.book = s.book) (ring : t.ring = s.ring) (openWait : t.openWait = s.openWait)
    (lanes : t.lanes = s.lanes.set n l) (same : l.resident = (s.lane n).resident) : Aside s t :=
  ⟨book, ring, openWait, residents_of_set lanes same⟩

theorem Leaves.of_lane {l : LaneUnit} (book : t.book = s.book) (ring : t.ring = s.ring) (openWait : t.openWait = s.openWait)
    (lanes : t.lanes = s.lanes.set n l) (free : l.resident = none) : Leaves s t n :=
  ⟨book, ring, openWait, by rw [lane_set_same lanes, free], fun m other => by rw [lane_set_other lanes other]⟩

section
variable (s : State)

/-! ### Reviews of a visit (R91 to R93, R147 to R156) -/

theorem Acts.reverted (h : Handle) (legs : List Leg) : Acts T s (s.reverted h legs) :=
  .foldl (fun _ l => (BookMove.revert l h).acts) legs s

theorem Acts.admitLegs (h : Handle) (legs : List Leg) : Acts T s (s.admitLegs h legs) :=
  .foldl (fun _ l => (BookMove.admission l h).acts) legs s

/-- A visit reviewed after updates of the book. -/
theorem Acts.reviewed {b : Book} {r : Ring} (moves : Acts T s { s with book := b, ring := r }) (here : s.visit v = some x)
    (aside : Aside { s with book := b, ring := r } t) (yard : t.yard = s.yard)
    (visits : t.visits = s.visits.set v { s.visits[v] with visit := some y }) (lane : y.lane = x.lane)
    (was : x.state.isResident = true) (stays : y.state.isResident = true)
    (legs : ∀ l ∈ y.legs, ∀ d, l.dest = some d → ∃ k ∈ x.legs, k.dest = some d) (early : T → x.Reviewed) : Acts T s t :=
  moves.trans (Act.review (s := { s with book := b, ring := r }) v x y here aside yard visits lane was stays legs early).acts

theorem Acts.turnAway (here : s.visit v = some x) (held : x.state = .held) (n : Lane) (src : DecisionSource)
    (out : ReleaseOutcome) : Acts T s (s.turnAway n v src out) := by
  have moves : Acts T s (s.reverted (s.handle v) x.legs) := .reverted s _ _
  rw [(reverted_actsOnBook (s.handle v) x.legs).frame s] at moves
  rw [turnAway_eq here]
  refine .reviewed s moves here (.of_lane rfl rfl rfl rfl rfl) rfl rfl rfl (by rw [held]; rfl) rfl (fun l mem d is => ?_)
    fun _ => .inr (.inr held)
  obtain ⟨k, -, rfl⟩ := List.mem_map.1 mem
  cases is

/-- An allocation for a visit under review, its dispositions set (R168). -/
theorem Acts.allocate (here : s.visit v = some x) (early : x.Reviewed) (n : Lane) : Acts T s (s.allocate n v) := by
  cases given : s.placeLegs [] [] x.legs with
  | none =>
    have waits : s.allocate n v = s.enterYardWait n v := by
      simp only [State.allocate, place_eq_none here given]
    rw [waits, enterYardWait_eq here]
    exact Act.acts (.wait v x _ here (.of_lane rfl rfl rfl rfl rfl) rfl rfl rfl rfl rfl early)
  | some dests =>
    rw [allocate_of_placed here given]
    obtain ⟨yard, committed⟩ : ∃ yard, yard = s.yard.committed (s.handle v) x.legs dests := ⟨_, rfl⟩
    rw [← committed]
    have there : State.visit { s with
        visits := s.visits.set v { s.visits[v] with visit := some { x with legs := List.zipWith Leg.setDest x.legs dests } }
        yard := yard } v = some { x with legs := List.zipWith Leg.setDest x.legs dests } :=
      visit_set_same (y := { s.visits[v] with visit := some { x with legs := List.zipWith Leg.setDest x.legs dests } }) rfl
    rw [enterDirecting_eq there n]
    have placed : Acts T s (State.directed { s with
        visits := s.visits.set v { s.visits[v] with visit := some { x with legs := List.zipWith Leg.setDest x.legs dests } }
        yard := yard } n v { x with legs := List.zipWith Leg.setDest x.legs dests }) :=
      Act.acts (.place v x _ dests here (.of_lane rfl rfl rfl rfl rfl) given committed (visits_set_set _ _) rfl rfl rfl early)
    exact placed.trans (Calm.acts (.ite (.report _ n) (.refl _)))

theorem judge_calm (x : Visit) (b : Book) (c : Check) : x.Calm (x.judge b c) := by
  have same : (x.judge b c).lane = x.lane ∧ (x.judge b c).state = x.state := by
    rw [judge_eq]
    exact ⟨rfl, rfl⟩
  exact ⟨same.1, judge_unjudged x b c, by rw [same.2], fun h => by rwa [Visit.Unplaced, same.2] at h⟩

theorem Acts.autoAdmit (here : s.visit v = some x) (early : x.Reviewed) (n : Lane) : Acts T s (s.autoAdmit n v) := by
  have moves : Acts T s (s.admitLegs (s.handle v) x.legs) := .admitLegs s _ _
  have frame := (admitLegs_actsOnBook (s.handle v) x.legs).frame s
  rw [frame] at moves
  unfold State.autoAdmit
  rw [here]
  dsimp only
  rw [frame]
  generalize (s.admitLegs (s.handle v) x.legs).book = book at moves ⊢
  generalize (s.admitLegs (s.handle v) x.legs).ring = ring at moves ⊢
  have there : State.visit { s with book := book, ring := ring } v = some x := here
  rw [modVisit_put there]
  let y : Visit := { x with
    legs := x.legs.map fun l => { l with disposition := .yard }, source := some .auto, outcome := some .admission }
  have reviewed : Acts T s (State.putVisit { s with book := book, ring := ring } v y) := by
    refine .reviewed s moves here (.of_eq rfl rfl rfl rfl) rfl rfl rfl early.resident early.resident (fun l mem d is => ?_)
      fun _ => early
    obtain ⟨k, old, rfl⟩ := List.mem_map.1 mem
    exact ⟨k, old, is⟩
  exact reviewed.trans (.allocate _ (putVisit_visit _ v y) early n)

theorem Acts.endOfChecking (here : s.visit v = some x) (checking : x.state = .checking) (n : Lane) :
    Acts T s (s.endOfChecking n v) := by
  have state : (x.judge s.book s.check).state = .checking := by
    rw [judge_eq]
    exact checking
  have judged : Acts T s (s.putVisit v (x.judge s.book s.check)) :=
    (Calm.putVisit here (judge_calm x _ _) fun waits => by rw [checking] at waits; cases waits).acts
  unfold State.endOfChecking
  rw [here]
  dsimp only
  rw [modVisit_put here]
  refine judged.trans (.ite (.autoAdmit _ (putVisit_visit s v _) (.inr (.inl state)) n) (Calm.acts ?_))
  exact .enterHeld _ (putVisit_visit s v _) n (.inr (.inl state)) fun waits => by rw [state] at waits; cases waits

theorem Acts.testChecking (n : Lane) : Acts T s (s.testChecking n) := by
  unfold State.testChecking
  split
  case h_1 v x is =>
    obtain ⟨resident, state⟩ := residentIn_eq_some.1 is
    exact .ite (.endOfChecking s resident.2 state n) (.refl s)
  case h_2 => exact .refl s

theorem Acts.earlyTestOf (h : Handle) : Acts T s (s.earlyTestOf h) := by
  unfold State.earlyTestOf
  split
  · exact .ite ((Calm.closeGrading s _ _).acts.trans (.testChecking _ _)) (.refl s)
  · exact .refl s

theorem Acts.gradingCompletes (n : Lane) (c : Scan) : Acts T s (s.gradingCompletes n c) := by
  have freed : Calm s { s with grader := { s.grader with inFlight := none } } := .of_eq rfl rfl rfl rfl rfl rfl
  exact ((((freed.trans (.applyScan _ n c)).trans (.closeAllClosing _ n)).acts.trans (.earlyTestOf _ _)).trans
    (.testChecking _ n)).trans (Calm.acts ((Calm.gradingTake _).trans (.startJobs _)))

theorem Acts.identificationTold (n : Lane) (v : Fin 64) : Acts T s (s.identificationTold n v) := by
  unfold State.identificationTold
  split
  case h_1 => exact .refl s
  case h_2 x here =>
    split_ifs with due checking
    · exact .turnAway s here due.1 n _ _
    · exact (Calm.stopDwell s n).acts.trans (.testChecking _ n)
    · exact .testChecking s n
    · exact .refl s

theorem Acts.formLegs (h : Handle) (a : Nat) (refs : List Text) : Acts T s (s.formLegs h a refs).1 := by
  induction refs generalizing s with
  | nil => exact .refl s
  | cons ref rest ih =>
    rw [State.formLegs]
    exact Acts.trans (BookMove.acts (.form h a ref)) (ih _)

theorem formLegs_dest (h : Handle) (a : Nat) (refs : List Text) : ∀ l ∈ (s.formLegs h a refs).2, l.dest = none := by
  induction refs generalizing s with
  | nil => exact fun _ mem => absurd mem List.not_mem_nil
  | cons ref refs ih =>
    rw [State.formLegs]
    intro l mem
    rcases List.mem_cons.1 mem with rfl | mem
    · unfold State.formLeg
      split
      · rfl
      · split <;> rfl
    · exact ih _ l mem

/-- The completion of an identification (R91, R93). -/
theorem Acts.identify (op : Ident)
    (early : T → ∀ x, s.named op.handle = some x → x.state.isResident = true → x.Reviewed) : Acts T s (s.identify op) := by
  cases named : s.named op.handle with
  | none =>
    rw [identify_of_gone fun x is => by rw [named] at is; cases is]
    exact .refl s
  | some x =>
    cases resident : x.state.isResident with
    | false =>
      rw [identify_of_gone fun y is => by rw [named] at is; cases is; exact not_resident_iff.1 resident]
      exact .refl s
    | true =>
      have moves : Acts T s (s.formLegs op.handle x.arrival op.refs).1 := .formLegs s _ _ _
      have frame := formLegs_moves (s := s) (t := s) rfl rfl op.handle x.arrival op.refs
      rw [congrArg Prod.fst frame] at moves
      rw [identify_of_named named resident]
      have dests := formLegs_dest s op.handle x.arrival op.refs
      generalize (s.formLegs op.handle x.arrival op.refs).2 = legs at dests ⊢
      generalize (s.formLegs op.handle x.arrival op.refs).1.book = book at moves ⊢
      generalize (s.formLegs op.handle x.arrival op.refs).1.ring = ring at moves ⊢
      have here : s.visit op.handle.slot = some x := (named_eq_some.1 named).2
      have reviewed : Acts T s (State.putVisit { s with book := book, ring := ring } op.handle.slot (x.identified legs)) :=
        .reviewed s moves here (.of_eq rfl rfl rfl rfl) rfl rfl rfl resident resident
          (fun l mem d is => by rw [dests l mem] at is; cases is) fun timely => early timely x named resident
      exact (reviewed.trans (Calm.acts (.earlyTest _ _ _))).trans (.identificationTold _ _ _)

end

end Sys2Proof.Machine
end

section
/-!
PROOFS. The acts of the lane sequencer and of the requests that name a lane or a visit.
-/

namespace Sys2Proof.Machine

variable {s t u w : State} {n : Lane} {v : Fin 64} {x y z : Visit} {T : Prop}

section
variable (s : State)

/-! ### Opening and leaving (R71 to R74, R79, R84) -/

theorem Acts.openVisit (free : s.visit v = none) (spot : (s.lane n).resident = none ∨ n ∈ s.openWait) :
    Acts T s (s.openVisit n v) := by
  rw [openVisit_eq]
  refine Act.acts (.opens n v (.opened n s.time.minute) free spot rfl rfl rfl rfl rfl rfl rfl rfl ?_ fun m other => ?_)
  · simp [State.lane, LaneUnit.opening]
  · simp [State.lane, Fin.val_ne_of_ne (Ne.symm other)]

theorem laneState_empty (state : s.laneState n = .idle ∨ s.laneState n = .blocked) : (s.lane n).resident = none := by
  cases is : (s.lane n).resident with
  | none => rfl
  | some v => rcases state with state | state <;> rw [laneState_of_resident is] at state <;> cases state

theorem Acts.takeEntry (n : Lane) : Acts T s (s.takeEntry n) := by
  unfold State.takeEntry
  split
  · split
    · next idle =>
      split
      · next v first =>
        have free : s.visit v = none := Option.isNone_iff_eq_none.1 (by simpa using List.find?_some first)
        exact .openVisit s free (.inl (laneState_empty s (.inl idle)))
      · exact .refl s
    · next blocked => exact (Calm.joinWait s (laneState_empty s (.inr blocked))).acts
    all_goals exact .refl s
  · exact .refl s

theorem Acts.afterDeparture (n : Lane) : Acts T (s.departedFrom n) (s.afterDeparture n) := by
  rw [afterDeparture_eq]
  exact .ite (Calm.completeClosing _ n).acts (.ite (.takeEntry _ n) (.refl _))

/-- A lane without a visit loses its mark of one. -/
theorem Calm.modLane_cleared {f : LaneUnit → LaneUnit} (empty : ∀ v, (s.lane n).resident = some v → s.visit v = none)
    (clears : (f (s.lane n)).resident = none) : Calm s (s.modLane n f) :=
  { Calm.refl s with
    residents := fun m => by
      by_cases is : m = n
      · subst is
        exact .inr ⟨by rw [modLane_lane_same, clears], empty⟩
      · exact .inl (by rw [modLane_lane_other _ _ is])
    waits := fun _ mem => .inl mem }

theorem residentVisit_eq_none : s.residentVisit n = none ↔ ∀ v, (s.lane n).resident = some v → s.visit v = none := by
  unfold State.residentVisit
  cases (s.lane n).resident <;> simp

theorem Calm.departedFrom (empty : s.residentVisit n = none) : Calm s (s.departedFrom n) := by
  have cleared := Calm.modLane_cleared (n := n) (f := LaneUnit.departed) s ((residentVisit_eq_none s).1 empty) rfl
  exact cleared.trans (.of_eq rfl rfl rfl rfl rfl rfl)

theorem Acts.departVisit (resident : s.Resident n v x) (releasing : x.state = .releasing) : Acts T s (s.departVisit n v) := by
  unfold State.departVisit
  rw [modVisit_put resident.2]
  let y : Visit := { x with state := (departed x.outcome).1, rejectReason := (departed x.outcome).2, outcome := none }
  have gone : y.state.isResident = false := by
    change (departed x.outcome).1.isResident = false
    rw [departed_eq]
    dsimp only
    split <;> rfl
  have departs : Acts T s (((s.putVisit v y).join (.visit v)).departedFrom n) :=
    Act.acts (.depart n v x y resident releasing (.of_lane rfl rfl rfl rfl rfl) rfl rfl rfl rfl gone)
  exact departs.trans (.afterDeparture _ n)

theorem Acts.takeLoop (n : Lane) (p : Loop) (level : Bool) : Acts T s (s.takeLoop n p level) := by
  unfold State.takeLoop
  split
  case h_1 v x is =>
    have resident := residentVisit_eq_some.1 is
    unfold State.loopResident
    split
    · exact .ite (.refl s) (Calm.modLane s n rfl).acts
    · split
      · next entering =>
        refine ((Calm.modVisit s v (fun y there => ?_) fun y there waits => ?_).trans (.loadDwell _ n _ _)).acts
        · cases resident.2.symm.trans there
          exact .of_moved rfl rfl (by rw [entering.2]; rfl) fun _ => .inl entering.2
        · cases resident.2.symm.trans there
          rw [entering.2] at waits
          cases waits
      · exact .refl s
    · split
      · next releasing => exact .ite (Calm.modLane s n rfl).acts (.ite (.departVisit s resident releasing) (.refl s))
      · exact .refl s
  case h_2 empty =>
    unfold State.loopEmpty
    split
    · exact .ite (.takeEntry s n) (Calm.leaveWait s n).acts
    · exact .refl s
    · refine .ite (.ite (Calm.modLane s n rfl).acts (.ite ?_ (.refl s))) (.refl s)
      exact (Calm.departedFrom s empty).acts.trans (.afterDeparture s n)

/-! ### Rejection (R83, R85, R88) -/

theorem Acts.retryIf (b : Bool) : Acts T s (s.retryIf b) := .ite (Act.acts (.retry rfl)) (.refl s)

/-- A visit rejected in its lane, whatever else happens to the lane. -/
theorem Acts.rejected (resident : s.Resident n v x) (why : RejectReason)
    (book : t.book = (s.rejection v x why).book) (ring : t.ring = (s.rejection v x why).ring)
    (yard : t.yard = (s.rejection v x why).yard) (visits : t.visits = (s.rejection v x why).visits)
    (openWait : t.openWait = s.openWait) {l : LaneUnit} (lanes : t.lanes = s.lanes.set n l) (free : l.resident = none) :
    Acts T s t := by
  have moves : Acts T s (s.reverted (s.handle v) (x.legs.filter fun l => !l.done)) := .reverted s _ _
  rw [(reverted_actsOnBook (s.handle v) (x.legs.filter fun l => !l.done)).frame s] at moves
  exact moves.trans (Act.acts (.reject n v x why resident (.of_lane book ring openWait lanes free) yard visits))

theorem rejectVisit_of_closed (closed : s.visit v = none) (why : RejectReason) : s.rejectVisit v why = s := by
  simp only [State.rejectVisit, closed]

theorem Acts.abortVisit (is : (s.lane n).resident = some v) : Acts T s (s.abortVisit n v) := by
  cases here : s.visit v with
  | none =>
    unfold State.abortVisit
    rw [rejectVisit_of_closed s here]
    have beside : Calm s ((s.withdraw n).emptySlot n) := .of_eq rfl rfl rfl rfl rfl rfl
    have empty : ∀ v, (((s.withdraw n).emptySlot n).lane n).resident = some v → s.visit v = none := fun w there => by
      cases is.symm.trans there
      exact here
    exact (((beside.trans (.modLane_cleared _ empty rfl)).trans (.startReleasing _ n)).trans (.modSign _ n _)).acts
  | some x =>
    rw [abortVisit_eq here]
    exact .rejected s ⟨is, here⟩ .aborted rfl rfl rfl rfl rfl rfl rfl

/-- A lane reset with no visit to reject. -/
theorem Acts.cleared (empty : ∀ v, (s.lane n).resident = some v → s.visit v = none) :
    Acts T s ((((s.withdraw n).emptySlot n).modLane n LaneUnit.cleared).modSign n Sign.clearForReset) := by
  have beside : Calm s ((s.withdraw n).emptySlot n) := .of_eq rfl rfl rfl rfl rfl rfl
  have clears : Calm _ (((s.withdraw n).emptySlot n).modLane n LaneUnit.cleared) := .modLane_cleared _ empty rfl
  exact ((beside.trans clears).trans (.modSign _ n _)).acts

theorem Acts.resetLane (n : Lane) (why : RejectReason) : Acts T s (s.resetLane n why) := by
  unfold State.resetLane
  cases is : (s.lane n).resident with
  | none => exact .cleared s fun v there => by cases is.symm.trans there
  | some v =>
    cases here : s.visit v with
    | none =>
      dsimp only
      rw [rejectVisit_of_closed s here]
      exact .cleared s fun w there => by cases is.symm.trans there; exact here
    | some x =>
      dsimp only
      rw [rejectVisit_eq here]
      exact .rejected s ⟨is, here⟩ why rfl rfl rfl rfl rfl rfl rfl

theorem Acts.restart : Acts T s s.restart := by
  have lanes : Acts T s (Machine.forLanes restartLane (s.modLink fun l => { l with changes := [] })) :=
    (Calm.modLink s _).acts.trans (.forLanes (fun n t => (Acts.resetLane t n _).trans (Calm.setMode _ n _).acts) _)
  unfold State.restart
  dsimp only
  generalize Machine.forLanes restartLane (s.modLink fun l => { l with changes := [] }) = t at lanes ⊢
  have emptied : Calm t { t with openWait := [] } := .of_openWait t nofun
  have left : Calm { t with openWait := [] } { t with openWait := [], yard := { t.yard with queue := [] } } :=
    .of_yard _ (fun _ => rfl) (fun _ => rfl) (List.nil_sublist _)
  exact lanes.trans ((emptied.trans left).trans (.startJobs _)).acts

/-! ### VISIT_CLOSE and VISIT_DECIDE (R87, R152 to R156), LEG_DONE (R177) -/

theorem Acts.closeVisit (here : s.visit v = some x) (gone : x.state.isResident = false) : Acts T s (s.closeVisit v x) := by
  have moves : Acts T s (x.legs.foldl (fun u l => u.releaseBooking l (s.handle v)) s) :=
    .foldl (fun _ l => (BookMove.release l (s.handle v)).acts) x.legs s
  have frame := (releaseBookings_actsOnBook (s.handle v) x.legs).frame s
  beta_reduce at frame
  rw [frame, releaseBookings_ring] at moves
  have freed : Acts T s (s.slotFreed v x) :=
    moves.trans (Act.acts (.close v x here gone (.of_eq rfl rfl rfl rfl) rfl rfl))
  rw [closeVisit_eq]
  refine freed.trans ?_
  unfold State.handOn
  split
  · exact .refl _
  · next n more waits =>
    refine .openVisit _ ?_ (.inr (by rw [waits]; exact List.mem_cons_self))
    exact visit_set_same (y := ⟨s.visits[v].gen + 1, none⟩) rfl

theorem Acts.chosen (h : Handle) (x : Visit) (cs : List Choice) : Acts T s (s.chosen h x cs) :=
  .foldl (f := fun (u : State) (p : Leg × Choice) => if p.2 = .drop then u.revertBooking p.1 h else u.admitBooking p.1 h)
    (fun _ p => .ite (BookMove.revert p.1 h).acts (BookMove.admission p.1 h).acts) _ s

theorem Acts.admitByHost (here : s.visit v = some x) (held : x.state = .held) (n : Lane) (cs : List Choice) :
    Acts T s (s.admitByHost n v x cs) := by
  have moves : Acts T s (s.chosen (s.handle v) x cs) := .chosen s _ x cs
  have frame := (chosen_actsOnBook (s.handle v) x cs).frame s
  beta_reduce at frame
  rw [frame] at moves
  rw [admitByHost_eq here]
  generalize (s.chosen (s.handle v) x cs).book = book at moves ⊢
  generalize (s.chosen (s.handle v) x cs).ring = ring at moves ⊢
  have early : x.Reviewed := .inr (.inr held)
  have reviewed : Acts T s { s with
      book := book
      ring := ring
      lanes := s.lanes.set n { s.lane n with dwell := .stopped }
      visits := s.visits.set v { s.visits[v] with visit := some (x.chosen cs) } } := by
    refine .reviewed s moves here (.of_lane rfl rfl rfl rfl rfl) rfl rfl rfl early.resident early.resident
      (fun l mem d is => ?_) fun _ => early
    obtain ⟨i, at_⟩ := List.mem_iff_getElem?.1 mem
    obtain ⟨k, c, -, -, rfl⟩ := List.getElem?_zipWith_eq_some.1 at_
    rw [choose_eq] at is
    cases is
  exact reviewed.trans (.allocate _ (visit_set_same (y := { s.visits[v] with visit := some (x.chosen cs) }) rfl) early n)

theorem Acts.decide (here : s.visit v = some x) (held : x.state = .held) (n : Lane) (d : Decision) :
    Acts T s (s.decide n v x d) := by
  unfold State.decide
  split
  · exact .turnAway s here held n _ _
  · exact .ite (.admitByHost s here held n _) (.turnAway s here held n _ _)

theorem convertLeg_frame (h : Handle) (i : Nat) (l : Leg) :
    s.convertLeg h i l = { s with yard := (s.convertLeg h i l).yard } := by
  unfold State.convertLeg
  split
  · split <;> rfl
  · rfl
  · rfl

theorem Acts.finishLeg {i : Nat} {l : Leg} (here : s.visit v = some x) (leg : x.leg i = some l)
    (can : l.canFinish x = true) : Acts T s (s.finishLeg v i l) := by
  rw [finishLeg_eq here (convertLeg_frame s _ _ _)]
  have done : Acts T s { s with
      visits := s.visits.set v { s.visits[v] with
        visit := some { x with legs := x.legs.set (i - 1) { l with done := true } } }
      yard := (s.convertLeg (s.handle v) i l).yard } :=
    Act.acts (.finish v x i l here (.of_eq rfl rfl rfl rfl) leg can rfl rfl)
  exact (done.trans (Act.acts (.retry rfl))).trans (Calm.startJobs _).acts

/-! ### The expiries of the dwell timer (R74, R75, R157, R175) -/

theorem Acts.approachExpires (here : s.visit v = some x) (entering : x.state = .entering) (n : Lane) :
    Acts T s (s.approachExpires n v) := by
  have there : (s.takeExpiry n).visit v = some x := here
  unfold State.approachExpires
  rw [modVisit_put there]
  let y : Visit := { x with reasons := { x.reasons with approachTimeout := true } }
  have other : x.state ≠ .yardWait := by rw [entering]; nofun
  have noted : Calm (s.takeExpiry n) ((s.takeExpiry n).putVisit v y) :=
    .putVisit there (.of_same rfl rfl rfl) fun waits => absurd waits other
  have held : Calm ((s.takeExpiry n).putVisit v y) (((s.takeExpiry n).putVisit v y).enterHeld n v) :=
    .enterHeld _ (putVisit_visit _ v y) n (.inl entering) fun waits => absurd waits other
  exact ((((Calm.takeExpiry s n).trans noted).trans held).trans (.settleNotice _ n v)).acts

theorem Acts.settleExpires (n : Lane) (v : Fin 64) (x : Visit) : Acts T s (s.settleExpires n v x) := by
  have settled : Calm s (((s.takeExpiry n).modVisit v fun y => { y with settleExpired := true }).settleNotice n v) :=
    ((Calm.takeExpiry s n).trans (.keepVisit _ v)).trans (.settleNotice _ n v)
  unfold State.settleExpires
  dsimp only
  split
  · exact settled.acts.trans (.testChecking _ n)
  · exact (settled.trans (.loadDwell _ n _ _)).acts.trans (.testChecking _ n)

theorem Acts.cardExpires (n : Lane) (v : Fin 64) : Acts T s (s.cardExpires n v) :=
  ((Calm.takeExpiry s n).trans (.keepVisit _ v)).acts.trans (.testChecking _ n)

theorem Acts.holdExpires (here : s.visit v = some x) (held : x.state = .held) (n : Lane) :
    Acts T s (s.holdExpires n v x) := by
  have there : (s.takeExpiry n).visit v = some x := here
  unfold State.holdExpires
  exact (Calm.takeExpiry s n).acts.trans (.ite (Calm.keepVisit _ v).acts (.turnAway _ there held n _ _))

theorem Acts.yardWaitExpires (here : s.visit v = some x) (waiting : x.state = .yardWait) (n : Lane) :
    Acts T s (s.yardWaitExpires n v) := by
  have there : ((s.takeExpiry n).leaveQueue (s.handle v)).visit v = some x := here
  unfold State.yardWaitExpires
  rw [modVisit_put there]
  let y : Visit := { x with reasons := { x.reasons with noYardSpace := true } }
  let t : State := (s.takeExpiry n).leaveQueue (s.handle v)
  have left : t.handle v ∉ t.yard.queue := fun mem => by
    have differs := (List.mem_filter.1 mem).2
    exact bne_iff_ne.1 differs rfl
  have noted : Calm t (t.putVisit v y) := .putVisit there (.of_same rfl rfl rfl) fun _ other => absurd waiting other
  have held : Calm (t.putVisit v y) ((t.putVisit v y).enterHeld n v) :=
    .enterHeld _ (putVisit_visit _ v y) n (.inr (.inr (.inr waiting))) fun _ => by rw [putVisit_handle]; exact left
  exact ((((Calm.takeExpiry s n).trans (.leaveQueue _ _)).trans noted).trans held).acts

theorem Acts.retireDue : Acts T s s.retireDue := by
  have loop (minute fuel : Nat) (s : State) : Acts T s (retireLoop minute fuel s) := by
    induction fuel generalizing s with
    | zero => exact .refl s
    | succ fuel ih =>
      unfold retireLoop
      exact .ite ((BookMove.retire (s := s)).acts.trans (ih _)) (.refl s)
  exact loop _ _ s

end

end Sys2Proof.Machine
end

section
/-!
PROOFS. Every command is a chain of acts.
-/

namespace Sys2Proof.Machine

variable {s t u w : State} {n : Lane} {v : Fin 64} {x y z : Visit} {T : Prop}

/-- A command completes by a chain of acts. -/
def Performs (T : Prop) (s : State) (o : Host.Outcome State Fault Refusal) : Prop := ∃ t, o = .next t ∧ Acts T s t

theorem Performs.next (h : Acts T s t) : Performs T s (.next t) := ⟨t, rfl, h⟩

theorem Performs.live (h : Acts T s t) : Performs T s (Machine.live s t) := by
  refine .next ?_
  split
  · exact .refl s
  · exact h

theorem Performs.calm (h : Calm s t) : Performs T s (Machine.live s t) := .live h.acts

/-! ### Requests (R203, R204) -/

theorem startable_calm {code : Byte} {f : ReqFrame} (h : s.startable code = some (f, t)) : Calm s t := by
  obtain ⟨rest, -, -, -, -, rfl⟩ := startable_spec h
  exact .of_eq rfl rfl rfl rfl rfl rfl

theorem respond_calm (f : ReqFrame) (r : Result) (fields : List Byte) : Calm s (s.respond f r fields) := .modLink s _

theorem takeRequest_acts {α : Type} {code : Byte} {dec : Dec α} {serve : α → State → Answer}
    (acts : ∀ a t, Acts T t (serve a t).state) : Acts T s (takeRequest code dec serve s) := by
  unfold takeRequest
  split
  case h_1 => exact .refl s
  case h_2 f t start =>
    split
    case h_1 => exact ((startable_calm start).trans (respond_calm _ _ _)).acts
    case h_2 a _ => exact ((startable_calm start).acts.trans (acts a t)).trans (respond_calm _ _ _).acts

theorem Performs.request {α : Type} {code : Byte} {dec : Dec α} {serve : α → State → Answer}
    (acts : ∀ a t, Acts T t (serve a t).state) : Performs T s (Machine.live s (takeRequest code dec serve s)) :=
  .live (takeRequest_acts acts)

/-- A request whose owner opens, moves and closes no visit. -/
theorem Performs.calmRequest {α : Type} {code : Byte} {dec : Dec α} {serve : α → State → Answer}
    (calm : ∀ a t, Calm t (serve a t).state) : Performs T s (Machine.live s (takeRequest code dec serve s)) :=
  .request fun a t => (calm a t).acts

theorem Performs.booking {code : Byte} {dec : Dec BookReq} : Performs T s (Machine.live s (takeBooking code dec s)) := by
  refine .live ?_
  unfold takeBooking
  split
  case h_1 => exact .refl s
  case h_2 f t start =>
    split
    · exact ((startable_calm start).trans (respond_calm _ _ _)).acts
    · exact ((startable_calm start).trans (.modLink _ _)).acts

theorem onLane_acts {n : Nat} {serve : Lane → Answer} (acts : ∀ n, Acts T s (serve n).state) :
    Acts T s (onLane n s serve).state := by
  unfold onLane
  split
  · exact .refl s
  · exact acts _

theorem onLane_calm {n : Nat} {serve : Lane → Answer} (calm : ∀ n, Calm s (serve n).state) :
    Calm s (onLane n s serve).state := by
  unfold onLane
  split
  · exact .refl s
  · exact calm _

theorem visit_of_checkHandle {h : Nat × Nat} (taken : s.checkHandle h = .ok (v, x)) : s.visit v = some x := by
  unfold State.checkHandle at taken
  split at taken
  · split at taken
    · split at taken
      · cases taken
      · split at taken
        · cases taken
          assumption
        · cases taken
    · cases taken
  · cases taken

theorem onVisit_acts {h : Nat × Nat} {serve : Fin 64 → Visit → Answer}
    (acts : ∀ v x, s.visit v = some x → Acts T s (serve v x).state) : Acts T s (onVisit h s serve).state := by
  unfold onVisit
  split
  · exact .refl s
  · next taken => exact acts _ _ (visit_of_checkHandle taken)

/-! ### The owners -/

theorem serveLaneMode_calm (n : Lane) (m : Mode) (s : State) : Calm s (serveLaneMode n m s).state := by
  unfold serveLaneMode
  split
  · rw [accept_state]
    exact (Calm.setMode s n _).trans (.startJobs _)
  · split
    · rw [accept_state]
      exact ((Calm.setMode s n _).trans (.leaveWait _ n)).trans (.startJobs _)
    · exact .refl s
  · split
    · rw [accept_state]
      exact ((Calm.modLane s n rfl).trans (.leaveWait _ n)).trans (.startJobs _)
    · rw [accept_state]
      exact (((Calm.setMode s n _).trans (.stopDwell _ n)).trans (.leaveWait _ n)).trans (.startJobs _)

theorem serveLaneAbort_acts (n : Lane) (s : State) : Acts T s (serveLaneAbort n s).state := by
  unfold serveLaneAbort
  split
  · exact .refl s
  · next v is =>
    rw [accept_state]
    exact ((Acts.abortVisit s is).trans (.retryIf _ _)).trans (Calm.startJobs _).acts

theorem serveLaneReset_acts (n : Lane) (s : State) : Acts T s (serveLaneReset n s).state := by
  unfold serveLaneReset
  rw [accept_state]
  exact (((Acts.resetLane s n _).trans ((Calm.leaveWait _ n).trans (.closeIf _ n)).acts).trans (.retryIf _ _)).trans
    (Calm.startJobs _).acts

theorem servePointWrite_calm (n : Lane) (r : PointReq) (s : State) : Calm s (servePointWrite n r s).state := by
  unfold servePointWrite
  split
  · split
    · dsimp only [accept_state]
      exact .modLane s n rfl
    · exact .refl s
  · exact .refl s

theorem serveVisitClose_acts (here : s.visit v = some x) : Acts T s (serveVisitClose v x s).state := by
  unfold serveVisitClose
  split
  · exact .refl s
  · next gone =>
    rw [accept_state]
    exact ((Acts.closeVisit s here (Bool.not_eq_true _ ▸ gone)).trans (.retryIf _ _)).trans (Calm.startJobs _).acts

theorem held_of_decideCheck {d : Decision} (taken : decideCheck x d = none) : x.state = .held := by
  by_contra other
  unfold decideCheck at taken
  split_ifs at taken with misfit wrong
  exact wrong (.inl other)

theorem serveDecide_acts (d : Decision) (here : s.visit v = some x) : Acts T s (serveDecide d v x s).state := by
  unfold serveDecide
  split
  · exact .refl s
  · next taken =>
    split
    · exact .refl s
    · dsimp only [accept_state]
      exact (Acts.decide s here (held_of_decideCheck taken) _ d).trans (Calm.startJobs _).acts

theorem serveCheckSet_calm (r : Option Nat × Option Nat) (s : State) : Calm s (serveCheckSet r s).state := by
  unfold serveCheckSet
  split
  · exact .refl s
  · exact .of_eq rfl rfl rfl rfl rfl rfl

theorem serveSealSet_calm (r : Option Nat × Option Bool) (s : State) : Calm s (serveSealSet r s).state := by
  unfold serveSealSet
  split
  · exact .refl s
  · exact .of_eq rfl rfl rfl rfl rfl rfl

theorem serveMixSet_calm (r : MixReq) (s : State) : Calm s (serveMixSet r s).state := by
  unfold serveMixSet
  dsimp only
  split
  · exact .refl s
  · split
    · exact .refl s
    · exact .of_eq rfl rfl rfl rfl rfl rfl

theorem Block.apply_reserved (q : Block) (r : BlockReq) : (q.apply r).reserved = q.reserved := by
  rw [Block.apply_eq]
  split
  · exact q.fresh_reserved
  · exact q.fresh_reserved

theorem serveBlockSet_acts (b : Fin 48) (r : BlockReq) (s : State) : Acts T s (serveBlockSet b r s).state := by
  unfold serveBlockSet
  split
  · exact .refl s
  · dsimp only [accept_state]
    exact ((Calm.modBlock s b (Block.apply_reserved _ r)).acts.trans (.retryIf _ _)).trans (Calm.startJobs _).acts

theorem serveBlockQuery_calm (r : Option Nat) (s : State) : Calm s (serveBlockQuery r s).state := by
  unfold serveBlockQuery
  split
  · exact .refl s
  · split <;> exact .refl s

theorem serveGroupSet_acts (g : Fin 32) (l : Option (List Nat)) (s : State) : Acts T s (serveGroupSet g l s).state := by
  unfold serveGroupSet
  split
  · exact .refl s
  · split
    · next bs _ =>
      have set : Calm s { s with yard := { s.yard with groups := s.yard.groups.set g (toBlocks bs) } } :=
        .of_yard s (fun _ => rfl) (fun _ => rfl) (.refl _)
      dsimp only [accept_state]
      exact (set.acts.trans (.retryIf _ _)).trans (Calm.startJobs _).acts
    · exact .refl s

theorem serveBaySet_acts (b : Fin 4) (r : BayReq) (s : State) : Acts T s (serveBaySet b r s).state := by
  unfold serveBaySet
  split
  · dsimp only [accept_state]
    exact ((Calm.modBay s b rfl).acts.trans (.retryIf _ _)).trans (Calm.startJobs _).acts
  · exact .refl s

theorem serveLegDone_acts (i : Nat) (here : s.visit v = some x) : Acts T s (serveLegDone i v x s).state := by
  unfold serveLegDone
  split
  · exact .refl s
  · next l leg =>
    split
    · next can =>
      dsimp only [accept_state]
      exact .finishLeg s here leg can
    · exact .refl s

theorem serveSignSet_calm (n : Lane) (r : SignReq) (s : State) : Calm s (serveSignSet n r s).state := by
  have set := Calm.setSign s n r
  unfold serveSignSet
  generalize s.setSign n r = t at set
  dsimp only [accept_state]
  split
  · exact set.trans (.modSign t n _)
  · exact set

theorem serveLaneSet_calm (n : Lane) (r : LimitsReq) (s : State) : Calm s (serveLaneSet n r s).state := by
  unfold serveLaneSet
  dsimp only [accept_state]
  exact .modLane s n rfl

theorem serveFlagsClear_calm (n : Lane) (mask : Nat) (s : State) : Calm s (serveFlagsClear n mask s).state := by
  unfold serveFlagsClear
  dsimp only [accept_state]
  exact .modLane s n rfl

theorem serveChangeNext_calm (s : State) : Calm s (serveChangeNext s).state := by
  unfold serveChangeNext
  split
  · exact .refl s
  · exact .of_eq rfl rfl rfl rfl rfl rfl

theorem serveTickSet_calm (r : Option Nat × Option Nat) (s : State) : Calm s (serveTickSet r s).state := by
  unfold serveTickSet
  split
  · exact .of_eq rfl rfl rfl rfl rfl rfl
  · exact .refl s

theorem serveWindowQuery_calm (start : Option Nat) (s : State) : Calm s (serveWindowQuery start s).state := by
  unfold serveWindowQuery
  split
  · split
    · exact .refl s
    · exact .of_eq rfl rfl rfl rfl rfl rfl
  · split <;> exact .refl s

theorem serveAllowances_acts (a : AllowanceReq) (s : State) : Acts T s (serveAllowances a s).state := by
  unfold serveAllowances
  split
  · exact .refl s
  · have replaced : Acts T s { s with ring := s.ring.setAllowances a } := BookMove.acts (.allowances a)
    exact .ite (replaced.trans (.retireDue _)) replaced

/-! ### Transfers, time and power -/

theorem writeTransfer_calm (bytes : List Byte) : Calm s (s.writeTransfer bytes) := by
  unfold State.writeTransfer
  dsimp only
  split
  · exact .modLink s _
  · split
    · exact (Calm.modLink s _).trans (.modLink _ _)
    · split
      · exact (Calm.modLink s _).trans (.modLink _ _)
      · exact (Calm.modLink s _).trans (.modLink _ _)

theorem readTransfer_calm (clocked : Nat) : Calm s (s.readTransfer clocked) := by
  unfold State.readTransfer
  split
  · exact .of_eq rfl rfl rfl rfl rfl rfl
  · split
    · exact .modLink s _
    · exact .modLink s _

theorem poweredOn_act : Act T s s.poweredOn := by
  unfold State.poweredOn
  exact .reset rfl rfl rfl rfl rfl rfl

theorem idle_calm : Calm s s.idle := by
  unfold State.idle
  split
  · exact .refl s
  · split
    · exact .tickBoundary s
    · exact .of_eq rfl rfl rfl rfl rfl rfl

theorem takeTimeSet_calm : Calm s (takeTimeSet s) := by
  unfold takeTimeSet
  split
  case h_1 => exact .refl s
  case h_2 f t start =>
    have started := startable_calm start
    split
    · exact started.trans (.modLink _ _)
    · split
      · exact started.trans (.modLink _ _)
      · dsimp only
        have set (b : TimeBase) : Calm t { t with time := b } := .of_eq rfl rfl rfl rfl rfl rfl
        split
        · exact (started.trans (set _)).trans (.modLink _ _)
        · exact (started.trans (set _)).trans (.modLink _ _)

theorem finish_calm (e : Execution) (r : Result) (fields : List Byte) : Calm s (s.finish e r fields) := .modLink s _

theorem catchUpStep_acts (e : Execution) (minute retired : Nat) : Acts T s (s.catchUpStep e minute retired) := by
  have retires : Acts T s s.retireOne := BookMove.acts .retire
  unfold State.catchUpStep
  dsimp only
  split
  · split
    · exact retires.trans (Calm.modLink _ _).acts
    · exact retires.trans (finish_calm _ _ _).acts
  · exact (finish_calm _ _ _).acts

theorem completeHost_acts (e : Execution) (req : BookReq) : Acts T s (s.completeHost e req) := by
  have freed : Calm s s.engineFree := .of_eq rfl rfl rfl rfl rfl rfl
  have completes : Acts T s.engineFree (completeBooking s.engineFree req).state := BookMove.acts (.complete req)
  exact ((freed.acts.trans completes).trans (finish_calm e _ _).acts).trans (Calm.grant _).acts

/-! ### Every command -/

theorem execLoopEvent_performs (n : Lane) (p : Loop) (level : Bool) : Performs T s (execLoopEvent n p level s) := by
  have set : Calm s (s.setLoop n p level) := .of_eq rfl rfl rfl rfl rfl rfl
  refine .next ?_
  split
  · exact .refl s
  · split
    · exact set.acts
    · exact (set.acts.trans (.takeLoop _ n p level)).trans (Calm.startJobs _).acts

theorem execIdentificationComplete_performs (early : T → s.IdentifiesInTime) :
    Performs T s (execIdentificationComplete s) := by
  have freed : Calm s s.engineFree := .of_eq rfl rfl rfl rfl rfl rfl
  refine .live ?_
  split
  · next n op flight =>
    refine (freed.acts.trans (.identify _ op fun timely x named => ?_)).trans ((Calm.grant _).trans (.startJobs _)).acts
    exact early timely n op flight x named
  · exact .refl s
  · exact .refl s

/-- An expiry that is due at a visit, or is not (R74, R75, R157, R175). -/
theorem expiry_performs {st : VisitState} {k : LimitKind} {f : Fin 64 → Visit → State}
    (acts : ∀ v x, s.visit v = some x → x.state = st → Acts T s (f v x)) :
    Acts T s (match s.expiring n st k with
      | some (v, x) => (f v x).startJobs
      | none => s) := by
  split
  · next v x due =>
    unfold State.expiring at due
    split at due
    · obtain ⟨resident, state⟩ := residentIn_eq_some.1 due
      exact (acts v x resident.2 state).trans (Calm.startJobs _).acts
    · cases due
  · exact .refl s

theorem execMinuteEvent_performs : Performs T s (execMinuteEvent s) := by
  have given : Calm s { s with time := { s.time with minuteDue := false } } := .of_eq rfl rfl rfl rfl rfl rfl
  refine .live (.ite ?_ (.refl s))
  exact .ite given.acts (given.acts.trans (.retireDue _))

theorem execUnknownRequest_calm : Performs T s (execUnknownRequest s) := by
  refine .calm ?_
  split
  · exact .refl s
  · split
    · exact .refl s
    · split
      case h_1 => exact .refl s
      case h_2 f t start => exact (startable_calm start).trans (.modLink _ _)

theorem execSignReply_performs (n : Lane) (chars : List RxChar) : Performs T s (execSignReply n chars s) := by
  refine .calm ?_
  split
  · exact (Calm.takeReply s n _).trans (.startJobs _)
  · exact .refl s

theorem execReplyTimerExpiry_performs (n : Lane) : Performs T s (execReplyTimerExpiry n s) := by
  refine .calm ?_
  split
  · split
    · exact (Calm.failJob s n _).trans (.startJobs _)
    · exact .refl s
    · exact .refl s
  · exact .refl s

/-- Every command completes by a chain of acts. -/
theorem exec_performs (c : Instr) (s : State) (early : T → c = .identificationComplete → s.IdentifiesInTime) :
    Performs T s (exec c s) := by
  have quiet {t : State} (book : t.book = s.book) (ring : t.ring = s.ring) (lanes : t.lanes = s.lanes)
      (openWait : t.openWait = s.openWait) (visits : t.visits = s.visits) (yard : t.yard = s.yard) : Acts T s t :=
    (Calm.of_eq book ring lanes openWait visits yard).acts
  cases c with
  | requestFrameArrival bytes => exact .calm (writeTransfer_calm bytes)
  | readTransfer clocked => exact .calm (readTransfer_calm clocked)
  | transferOperationError op clocked =>
    have shifted (u : State) : Calm u (u.shiftFree clocked) := .of_eq rfl rfl rfl rfl rfl rfl
    refine .calm (Calm.trans ?_ (shifted _))
    split
    · exact .refl s
    · exact .modLink s _
  | linkResetAssert busy =>
    refine .next (.ite (quiet rfl rfl rfl rfl rfl rfl) (quiet rfl rfl rfl rfl rfl rfl))
  | linkResetRelease => exact .next (quiet rfl rfl rfl rfl rfl rfl)
  | prstAssert => exact .next (quiet rfl rfl rfl rfl rfl rfl)
  | powerOn => exact .next (t := s.poweredOn) poweredOn_act.acts
  | tickEvent => exact .calm (.tickBoundary s)
  | minuteEvent => exact execMinuteEvent_performs
  | unknownRequest => exact execUnknownRequest_calm
  | status => exact .calmRequest fun _ t => .refl t
  | changeNext => exact .calmRequest fun _ t => serveChangeNext_calm t
  | attnEnableSet | attnEnableClear => exact .calmRequest fun mask t => .of_eq rfl rfl rfl rfl rfl rfl
  | gateRestart =>
    refine .request fun _ t => ?_
    rw [accept_state]
    exact .restart t
  | timeSet => exact .calm takeTimeSet_calm
  | tickSet => exact .calmRequest serveTickSet_calm
  | bookCreate | bookAmend | bookCancel | bookRetire | bookQuery | bookScan => exact .booking
  | windowPlan => exact .request fun r t => BookMove.acts (.plan r)
  | windowSet => exact .request fun r t => BookMove.acts (.quotas r)
  | windowSetAllowances => exact .request serveAllowances_acts
  | defaultQuota => exact .request fun q t => BookMove.acts (.defaults q)
  | windowQuery => exact .calmRequest serveWindowQuery_calm
  | laneMode => exact .calmRequest fun r t => onLane_calm fun n => serveLaneMode_calm n r.2 t
  | laneSet => exact .calmRequest fun r t => onLane_calm fun n => serveLaneSet_calm n r.2 t
  | laneAbort => exact .request fun r t => onLane_acts fun n => serveLaneAbort_acts n t
  | laneReset => exact .request fun r t => onLane_acts fun n => serveLaneReset_acts n t
  | pointWrite => exact .calmRequest fun r t => onLane_calm fun n => servePointWrite_calm n r t
  | pointRead => exact .calmRequest fun r t => onLane_calm fun n => .refl t
  | laneFlagsClear => exact .calmRequest fun r t => onLane_calm fun n => serveFlagsClear_calm n r.2 t
  | visitQuery => exact .request fun h t => onVisit_acts fun _ _ _ => .refl t
  | visitClose => exact .request fun h t => onVisit_acts fun v x here => serveVisitClose_acts here
  | visitDecide => exact .request fun r t => onVisit_acts fun v x here => serveDecide_acts r.2 here
  | checkSet => exact .calmRequest serveCheckSet_calm
  | sealSet => exact .calmRequest serveSealSet_calm
  | mixSet => exact .calmRequest serveMixSet_calm
  | graderStatus => exact .calmRequest fun clear t => .ite (.clearCounts t) (.refl t)
  | blockSet =>
    refine .request fun r t => ?_
    split
    · exact serveBlockSet_acts _ r.2 t
    · exact .refl t
  | blockQuery => exact .calmRequest serveBlockQuery_calm
  | groupSet =>
    refine .request fun r t => ?_
    split
    · exact serveGroupSet_acts _ r.2 t
    · exact .refl t
  | baySet =>
    refine .request fun r t => ?_
    split
    · exact serveBaySet_acts _ r.2 t
    · exact .refl t
  | legDone => exact .request fun r t => onVisit_acts fun v x here => serveLegDone_acts r.2 here
  | signSet => exact .calmRequest fun r t => onLane_calm fun n => serveSignSet_calm n r.2 t
  | indexEngineGrant => exact .calm (.grant s)
  | indexOperationComplete =>
    refine .live ?_
    split
    · exact completeHost_acts _ _
    · exact .refl s
  | identificationComplete => exact execIdentificationComplete_performs fun timely => early timely rfl
  | catchUpRetirement =>
    refine .live ?_
    split
    · split
      · exact catchUpStep_acts _ _ _
      · exact .refl s
    · exact .refl s
  | loopEvent n p level => exact execLoopEvent_performs n p level
  | laneFrameArrival n chars => exact .calm (.frameArrives s n chars)
  | laneFrameTake n => exact .calm (.takeFrame s n)
  | approachLimitExpiry n => exact .live (expiry_performs fun v x here state => .approachExpires s here state n)
  | settleExpiry n => exact .live (expiry_performs fun v x _ _ => .settleExpires s n v x)
  | cardLimitExpiry n => exact .live (expiry_performs fun v _ _ _ => .cardExpires s n v)
  | holdTimeout n => exact .live (expiry_performs fun v x here state => .holdExpires s here state n)
  | yardWaitLimitExpiry n => exact .live (expiry_performs fun v x here state => .yardWaitExpires s here state n)
  | clearLimitExpiry n =>
    exact .calm (.ite (((Calm.takeExpiry s n).trans (.modLane _ n rfl)).trans (.join _ _)) (.refl s))
  | refreshEvent n => exact .calm (.ite (((Calm.modLane s n rfl).trans (.refreshSign _ n))) (.refl s))
  | replyTimerExpiry n => exact execReplyTimerExpiry_performs n
  | signReply n chars => exact execSignReply_performs n chars
  | gradingEngineTake => exact .calm (.gradingTake s)
  | gradingCompletion =>
    refine .live ?_
    split
    · exact .gradingCompletes s _ _
    · exact .refl s
  | frameCutShort n => exact .calm (.setFlag s n _)

/-- A step is a chain of acts. -/
theorem step_acts (h : step s = .next t)
    (early : T → ∀ rest, s.pending = .identificationComplete :: rest → s.IdentifiesInTime) : Acts T s t := by
  unfold step at h
  split at h
  case h_1 =>
    obtain rfl := Host.Outcome.next.inj h
    exact idle_calm.acts
  case h_2 c rest pending =>
    have taken : Calm s { s with pending := rest } := .of_eq rfl rfl rfl rfl rfl rfl
    obtain ⟨u, done, acts⟩ := exec_performs (T := T) c { s with pending := rest } fun timely is =>
      early timely rest (is ▸ pending)
    obtain rfl := Host.Outcome.next.inj (done.symm.trans h)
    exact taken.acts.trans acts

end Sys2Proof.Machine
end

section
/-!
PROOFS. The lanes' visits (R60 to R64, R71, R79, R83 to R88): O57.
-/

namespace Sys2Proof.Machine

variable {s t u w : State} {n : Lane} {v : Fin 64} {x y z : Visit} {T : Prop}

/-- A slot's visit replaced, or freed. -/
theorem visit_of_set {slot : VisitSlot} (visits : t.visits = s.visits.set v slot) (m : Fin 64) :
    t.visit m = if m = v then slot.visit else s.visit m := by
  split
  · next is => rw [is, visit_set_same visits]
  · next other => exact visit_set_other visits other

theorem Seated.of_residents (seated : s.Seated) (residents : ∀ n v, (t.lane n).resident = some v → (s.lane n).resident = some v)
    (visits : ∀ v x, s.visit v = some x → x.state.isResident = true → (∃ n, (t.lane n).resident = some v) →
      ∃ y, t.visit v = some y ∧ y.lane = x.lane ∧ y.state.isResident = true) : t.Seated := by
  intro n v is
  obtain ⟨x, here, lane, resident⟩ := seated n v (residents n v is)
  obtain ⟨y, there, same, stays⟩ := visits v x here resident ⟨n, is⟩
  exact ⟨y, there, same.trans lane, stays⟩

/-- A visit replaced by one of the same lane. -/
theorem Seated.put (seated : s.Seated) (residents : ∀ n, (t.lane n).resident = (s.lane n).resident)
    (here : s.visit v = some x) (visits : t.visits = s.visits.set v { s.visits[v] with visit := some y })
    (lane : y.lane = x.lane) (stays : x.state.isResident = true → y.state.isResident = true) : t.Seated := by
  refine Seated.of_residents seated (fun n v is => (residents n).symm.trans is) fun m z there resident _ => ?_
  rw [visit_of_set visits m]
  split
  · next is =>
    cases (is ▸ there).symm.trans here
    exact ⟨y, rfl, lane, stays resident⟩
  · exact ⟨z, there, rfl, resident⟩

/-- A lane without its visit: whatever becomes of that visit, no other lane had it. -/
theorem Seated.leave (seated : s.Seated) (resident : s.Resident n v x) (leaves : Leaves s t n) {slot : VisitSlot}
    (visits : t.visits = s.visits.set v slot) : t.Seated := by
  have others {m : Lane} {k : Fin 64} (is : (t.lane m).resident = some k) : m ≠ n ∧ (s.lane m).resident = some k := by
    have other : m ≠ n := fun same => by
      rw [same, leaves.free] at is
      cases is
    exact ⟨other, (leaves.others m other).symm.trans is⟩
  refine Seated.of_residents seated (fun m k is => (others is).2) fun k z there stays ⟨m, is⟩ => ⟨z, ?_, rfl, stays⟩
  obtain ⟨other, was⟩ := others is
  rw [visit_of_set visits k, if_neg, there]
  rintro rfl
  obtain ⟨a, here, lane, -⟩ := seated m k was
  obtain ⟨b, here', lane', -⟩ := seated n k resident.1
  cases here.symm.trans here'
  exact other (lane.symm.trans lane')

theorem Act.seated (act : Act T s t) (seated : s.Seated) : t.Seated := by
  cases act with
  | calm h =>
    refine Seated.of_residents seated (fun n v is => ?_) fun v x here resident _ => ?_
    · rcases h.residents n with same | ⟨none_, -⟩
      · exact same.symm.trans is
      · cases none_.symm.trans is
    · obtain ⟨y, there, calm, -⟩ := h.visits v x here
      exact ⟨y, there, calm.lane, calm.resident.trans resident⟩
  | book h =>
    rw [h.onBook]
    exact seated
  | review v x y here aside yard visits lane was stays legs early =>
    exact Seated.put seated aside.residents here visits lane fun _ => stays
  | wait v x y here aside yard visits lane legs state early =>
    exact Seated.put seated aside.residents here visits lane fun _ => by rw [state]; rfl
  | place v x y dests here aside given yard visits lane legs state early =>
    exact Seated.put seated aside.residents here visits lane fun _ => by rw [state]; rfl
  | retry is =>
    subst is
    have retries := retry_retries s
    refine Seated.of_residents seated (fun n v is => (retries.residents n).symm.trans is) fun v x here resident _ => ?_
    obtain ⟨y, there, lane, stays⟩ := retries.stays v x here
    exact ⟨y, there, lane, stays resident⟩
  | depart n v x y resident releasing leaves yard visits lane legs gone => exact Seated.leave seated resident leaves visits
  | reject n v x why resident leaves yard visits => exact Seated.leave seated resident leaves visits
  | opens n v y free spot book ring yard openWait visits lane legs state resident others =>
    intro m k is
    by_cases same : m = n
    · subst same
      cases resident.symm.trans is
      exact ⟨y, visit_set_same visits, lane, by rw [state]; rfl⟩
    · obtain ⟨x, here, lane, stays⟩ := seated m k ((others m same).symm.trans is)
      refine ⟨x, ?_, lane, stays⟩
      rw [visit_set_other visits, here]
      rintro rfl
      cases here.symm.trans free
  | close v x here gone aside yard visits =>
    refine Seated.of_residents seated (fun n v is => (aside.residents n).symm.trans is) fun m z there resident _ => ?_
    refine ⟨z, ?_, rfl, resident⟩
    rw [visit_of_set visits m, if_neg, there]
    rintro rfl
    cases here.symm.trans there
    exact Bool.false_ne_true (gone.symm.trans resident)
  | finish v x i l here aside leg can yard visits => exact Seated.put seated aside.residents here visits rfl id
  | reset book ring lanes openWait visits yard =>
    intro n v is
    simp [State.lane, lanes, State.reset, LaneUnit.reset] at is

end Sys2Proof.Machine

open Sys2Proof Sys2Proof.Machine in
/-- Settles O57, act by act. -/
theorem stepKeepsTheLanesVisits : Obligations.StepKeepsTheLanesVisits := by
  intro s t run seated
  have acts : Acts False s t := step_acts run nofun
  clear run
  induction acts with
  | refl => exact seated
  | tail _ act kept => exact act.seated kept
end

section
/-!
PROOFS. What an update of the book can be (R12 to R22, R28, R37 to R39, R92), and the booking index (R6 to R8): O56.
-/

namespace Sys2Proof.Machine

variable {s t : State} {b c : Book} {r q u : Ring} {k : Nat} {old new : Booking} {T : Prop}

/-! ### The counts of a window under a change of one booking (R27) -/

/-- The booking counts as booked in a window for a kind (R27). -/
def Booking.bookedIn (a : Nat) (k : Kind) (b : Booking) : Bool := b.window == some a && b.kind == k

/-- The booking counts as arrived in a window for a kind (R27). -/
def Booking.arrivedIn (a : Nat) (k : Kind) (b : Booking) : Bool := b.window == some a && b.kind == k && b.state == .admitted

/-- A count goes from one that holds some bookings to one that holds others in their place. -/
def Recount (p : Booking → Bool) (old new : List Booking) (n m : Nat) : Prop :=
  old.countP p ≤ n → m + old.countP p = n + new.countP p

/-- A window's counts go with bookings: the `old` ones out and the `new` ones in. -/
structure Window.Recounted (w x : Window) (old new : List Booking) : Prop where
  start : x.start = w.start
  booked : ∀ k, Recount (Booking.bookedIn w.start k) old new (w.booked.get k) (x.booked.get k)
  arrived : ∀ k, Recount (Booking.arrivedIn w.start k) old new (w.arrived.get k) (x.arrived.get k)

/-- A ring whose windows' counts go with bookings. -/
def Ring.Recounts (r q : Ring) (old new : List Booking) : Prop :=
  ∃ f : Window → Window, q.windows = r.windows.map f ∧ ∀ w : Window, w.Recounted (f w) old new

theorem Recount.trans {p : Booking → Bool} {old mid new : List Booking} {n m l : Nat} (h : Recount p old mid n m)
    (g : Recount p mid new m l) : Recount p old new n l := by
  unfold Recount at *
  omega

theorem Recount.of_eq {p : Booking → Bool} {old new : List Booking} {n : Nat} (h : old.countP p = new.countP p) :
    Recount p old new n n := fun _ => by rw [h]

theorem Window.Recounted.trans {w x y : Window} {old mid new : List Booking} (h : w.Recounted x old mid)
    (g : x.Recounted y mid new) : w.Recounted y old new where
  start := g.start.trans h.start
  booked k := (h.booked k).trans (h.start ▸ g.booked k)
  arrived k := (h.arrived k).trans (h.start ▸ g.arrived k)

theorem Ring.Recounts.trans {old mid new : List Booking} (h : r.Recounts q old mid) (g : q.Recounts u mid new) :
    r.Recounts u old new := by
  obtain ⟨f, windows, recounted⟩ := h
  obtain ⟨f', windows', recounted'⟩ := g
  exact ⟨f' ∘ f, by rw [windows', windows, List.map_map], fun w => (recounted w).trans (recounted' (f w))⟩

theorem PerKind.get_put (p : PerKind) (k j : Kind) (n : Nat) : (p.put k n).get j = if k = j then n else p.get j := by
  cases k <;> cases j <;> rfl

theorem Booking.bookedIn_of_none (window : old.window = none) (a : Nat) (k : Kind) : old.bookedIn a k = false := by
  rw [Booking.bookedIn, window]
  rfl

theorem Booking.arrivedIn_eq (b : Booking) (a : Nat) (k : Kind) : b.arrivedIn a k = (b.bookedIn a k && b.state == .admitted) :=
  rfl

theorem Booking.bookedIn_of_window {a c : Nat} (window : old.window = some a) (k : Kind) :
    old.bookedIn c k = (decide (a = c) && decide (old.kind = k)) := by
  rw [Booking.bookedIn, window, Option.some_beq_some]
  rfl

/-- Two bookings count alike in every window. -/
def Booking.Alike (old new : Booking) : Prop :=
  ∀ a k, old.bookedIn a k = new.bookedIn a k ∧ old.arrivedIn a k = new.arrivedIn a k

theorem Booking.Alike.of_none (window : old.window = none) (window' : new.window = none) : old.Alike new := by
  intro a k
  rw [Booking.arrivedIn_eq, Booking.arrivedIn_eq, Booking.bookedIn_of_none window, Booking.bookedIn_of_none window']
  exact ⟨rfl, rfl⟩

theorem Booking.Alike.of_eq (window : new.window = old.window) (kind : new.kind = old.kind)
    (state : (new.state == .admitted) = (old.state == .admitted)) : old.Alike new := by
  intro a k
  have booked : new.bookedIn a k = old.bookedIn a k := by rw [Booking.bookedIn, window, kind, Booking.bookedIn]
  rw [Booking.arrivedIn_eq, Booking.arrivedIn_eq, booked, state]
  exact ⟨rfl, rfl⟩

/-- A ring whose windows and their counts stand, and bookings that count alike. -/
theorem Ring.Recounts.of_alike (alike : old.Alike new) (r : Ring) : r.Recounts r [old] [new] := by
  refine ⟨id, (List.map_id _).symm, fun w => ⟨rfl, fun k => .of_eq ?_, fun k => .of_eq ?_⟩⟩
  · rw [List.countP_singleton, List.countP_singleton, (alike w.start k).1]
  · rw [List.countP_singleton, List.countP_singleton, (alike w.start k).2]

/-- One window's counts change, and no other window counts the bookings. -/
theorem Ring.Recounts.modWindow {bs cs : List Booking} {a : Nat} {f : Window → Window}
    (here : ∀ w : Window, w.start = a → w.Recounted (f w) bs cs)
    (elsewhere : ∀ c, c ≠ a → ∀ b, b ∈ bs ∨ b ∈ cs → ∀ k, b.bookedIn c k = false) :
    r.Recounts (r.modWindow a f) bs cs := by
  refine ⟨_, rfl, fun w => ?_⟩
  split
  · next is => exact here w is
  · next other =>
    have none_ (p : Booking → Bool) (never : ∀ b, b ∈ bs ∨ b ∈ cs → p b = false) : bs.countP p = cs.countP p := by
      rw [List.countP_eq_zero.2 fun b mem => by simp [never b (.inl mem)],
        List.countP_eq_zero.2 fun b mem => by simp [never b (.inr mem)]]
    refine ⟨rfl, fun k => .of_eq (none_ _ fun b mem => elsewhere _ other b mem k), fun k => .of_eq (none_ _ fun b mem => ?_)⟩
    rw [Booking.arrivedIn_eq, elsewhere _ other b mem k, Bool.false_and]

theorem Booking.bookedIn_elsewhere {a c : Nat} (window : old.window = some a) (other : c ≠ a) (k : Kind) :
    old.bookedIn c k = false := by
  rw [Booking.bookedIn_of_window window, decide_eq_false other.symm, Bool.false_and]

section
variable {a : Nat}

/-- A booking not admitted enters a window (R12, R13, R36). -/
theorem Ring.Recounts.addBooked (window : new.window = some a) (state : (new.state == .admitted) = false) (r : Ring) :
    r.Recounts (r.addBooked a new.kind) [] [new] := by
  refine .modWindow (fun w is => ⟨rfl, fun k _ => ?_, fun k _ => ?_⟩) fun c other b mem k => ?_
  · dsimp only
    rw [PerKind.get_put, List.countP_nil, List.countP_singleton, Booking.bookedIn_of_window window, decide_eq_true is.symm]
    by_cases kind : new.kind = k
    · simp [kind]
    · simp [kind]
  · rw [List.countP_nil, List.countP_singleton, Booking.arrivedIn_eq, state, Bool.and_false]
    rfl
  · rcases mem with mem | mem
    · cases mem
    · rw [List.mem_singleton.1 mem, Booking.bookedIn_elsewhere window other]

/-- A booking not admitted leaves a window (R13, R14, R36). -/
theorem Ring.Recounts.subBooked (window : old.window = some a) (state : (old.state == .admitted) = false) (r : Ring) :
    r.Recounts (r.subBooked a old.kind) [old] [] := by
  refine .modWindow (fun w is => ⟨rfl, fun k within => ?_, fun k _ => ?_⟩) fun c other b mem k => ?_
  · dsimp only
    rw [List.countP_singleton, Booking.bookedIn_of_window window, decide_eq_true is.symm] at within ⊢
    rw [PerKind.get_put, List.countP_nil]
    by_cases kind : old.kind = k
    · simp only [kind, decide_true, Bool.and_self, if_true] at within ⊢
      omega
    · simp [kind]
  · rw [List.countP_nil, List.countP_singleton, Booking.arrivedIn_eq, state, Bool.and_false]
    rfl
  · rcases mem with mem | mem
    · rw [List.mem_singleton.1 mem, Booking.bookedIn_elsewhere window other]
    · cases mem

/-- A booking is admitted in its window (R19). -/
theorem Ring.Recounts.addArrived (window : old.window = some a) (state : (old.state == .admitted) = false)
    (window' : new.window = some a) (kind : new.kind = old.kind) (admitted : (new.state == .admitted) = true) (r : Ring) :
    r.Recounts (r.addArrived a old.kind) [old] [new] := by
  have same (c : Nat) (k : Kind) : new.bookedIn c k = old.bookedIn c k := by
    rw [Booking.bookedIn, window', kind, Booking.bookedIn, window]
  refine .modWindow (fun w is => ⟨rfl, fun k => .of_eq ?_, fun k _ => ?_⟩) fun c other b mem k => ?_
  · rw [List.countP_singleton, List.countP_singleton, same]
  · dsimp only
    rw [PerKind.get_put, List.countP_singleton, List.countP_singleton, Booking.arrivedIn_eq, Booking.arrivedIn_eq, same, state,
      admitted, Booking.bookedIn_of_window window, decide_eq_true is.symm]
    by_cases kind : old.kind = k
    · simp [kind]
    · simp [kind]
  · rcases mem with mem | mem <;> rw [List.mem_singleton.1 mem, Booking.bookedIn_elsewhere ‹_› other]

/-- An admitted booking is reverted in its window (R20). -/
theorem Ring.Recounts.subArrived (window : old.window = some a) (admitted : (old.state == .admitted) = true)
    (window' : new.window = some a) (kind : new.kind = old.kind) (state : (new.state == .admitted) = false) (r : Ring) :
    r.Recounts (r.subArrived a old.kind) [old] [new] := by
  have same (c : Nat) (k : Kind) : new.bookedIn c k = old.bookedIn c k := by
    rw [Booking.bookedIn, window', kind, Booking.bookedIn, window]
  refine .modWindow (fun w is => ⟨rfl, fun k => .of_eq ?_, fun k within => ?_⟩) fun c other b mem k => ?_
  · rw [List.countP_singleton, List.countP_singleton, same]
  · dsimp only
    rw [List.countP_singleton, Booking.arrivedIn_eq, admitted, Booking.bookedIn_of_window window, decide_eq_true is.symm]
      at within ⊢
    rw [PerKind.get_put, List.countP_singleton, Booking.arrivedIn_eq, same, state]
    by_cases kind : old.kind = k
    · simp only [kind, decide_true, Bool.and_self, if_true] at within ⊢
      simp only [Bool.and_false, Bool.false_eq_true, if_false]
      omega
    · simp [kind]
  · rcases mem with mem | mem <;> rw [List.mem_singleton.1 mem, Booking.bookedIn_elsewhere ‹_› other]

/-- A booking not admitted moves between windows (R13, R36). -/
theorem Ring.Recounts.moveBooked {c : Nat} (window : old.window = some a) (state : (old.state == .admitted) = false)
    (window' : new.window = some c) (kind : new.kind = old.kind) (state' : (new.state == .admitted) = false) (r : Ring) :
    r.Recounts (r.moveBooked (some a) (some c) old.kind) [old] [new] := by
  unfold Ring.moveBooked
  dsimp only
  split
  · next same => exact .of_alike (.of_eq (by rw [window, window', same]) kind (by rw [state, state'])) r
  · have entered := Ring.Recounts.addBooked window' state' (r.subBooked a old.kind)
    rw [kind] at entered
    exact .trans (.subBooked window state r) entered

end

/-! ### What an update of the book can be -/

/-- A booking fits the ring: its window is in it, a BOOKED booking has one and a NO_SHOW booking none (R3, R27). -/
structure Booking.Fits (b : Booking) (r : Ring) : Prop where
  inRing : ∀ a, b.window = some a → ∃ x ∈ r.windows, x.start = a
  booked : b.state = .booked → b.window ≠ none
  noShow : b.state = .noShow → b.window = none

/-- An update of the book and the ring. -/
inductive BookChange (s t : State) : Prop
  /-- Of the ring's settings and quotas. -/
  | settings (book : t.book = s.book) (ring : s.ring.Recounts t.ring [] [])
  /-- Of one record. -/
  | puts (k : Nat) (old new : Booking) (found : tableFind k s.book.records = some old) (ref : new.ref = old.ref)
      (records : t.book.records = tablePut k new s.book.records) (index : t.book.index = s.book.index)
      (fits : old.Fits s.ring → new.Fits s.ring) (ring : old.Fits s.ring → s.ring.Recounts t.ring [old] [new])
  /-- By a BOOK_CREATE (R12). -/
  | inserts (k : Nat) (new : Booking) (free : k = tableLowestFree 0 s.book.records) (unknown : s.book.lookup new.ref = none)
      (book : t.book = s.book.insert k new) (fits : new.Fits s.ring) (ring : s.ring.Recounts t.ring [] [new])
  /-- By a BOOK_CANCEL or a BOOK_RETIRE (R14, R15). -/
  | removes (k : Nat) (old : Booking) (found : tableFind k s.book.records = some old)
      (records : t.book.records = (s.book.remove k).records) (index : t.book.index = (s.book.remove k).index)
      (ring : old.Fits s.ring → s.ring.Recounts t.ring [old] [])
  /-- By a retirement (R30). -/
  | retires (w : Window) (rest : List Window) (oldest : s.ring.windows = w :: rest) (book : t.book = s.book.sweep w.start)
      (ring : t.ring = s.ring.advance)
  /-- By a WINDOW_PLAN (R28). -/
  | plans (empty : s.book.live = 0) (book : t.book = s.book)
      (ring : ∀ x ∈ t.ring.windows, x.booked = .all 0 ∧ x.arrived = .all 0)

theorem Ring.Recounts.of_counts {f : Window → Window} (windows : q.windows = r.windows.map f)
    (same : ∀ w, (f w).start = w.start ∧ (f w).booked = w.booked ∧ (f w).arrived = w.arrived) : r.Recounts q [] [] := by
  refine ⟨f, windows, fun w => ?_⟩
  obtain ⟨start, booked, arrived⟩ := same w
  exact ⟨start, fun k => by rw [booked]; exact .of_eq rfl, fun k => by rw [arrived]; exact .of_eq rfl⟩

theorem BookChange.of_windows (book : t.book = s.book) (windows : t.ring.windows = s.ring.windows) : BookChange s t :=
  .settings book (.of_counts (f := id) (by rw [windows, List.map_id]) fun _ => ⟨rfl, rfl, rfl⟩)

/-- A record is replaced by one that counts alike. -/
theorem BookChange.alike {k : Nat} (new : Booking) (found : tableFind k s.book.records = some old) (ref : new.ref = old.ref)
    (records : t.book.records = tablePut k new s.book.records) (index : t.book.index = s.book.index)
    (ring : t.ring = s.ring) (fits : old.Fits s.ring → new.Fits s.ring) (alike : old.Fits s.ring → old.Alike new) :
    BookChange s t :=
  .puts k old new found ref records index fits fun old => by rw [ring]; exact .of_alike (alike old) s.ring

theorem BookChange.refl (s : State) : BookChange s s := .of_windows rfl rfl

theorem Booking.Fits.congr (fits : old.Fits r) (window : new.window = old.window)
    (booked : new.state = .booked → old.state = .booked) (noShow : new.state = .noShow → old.state = .noShow) :
    new.Fits r where
  inRing a is := fits.inRing a (window.symm.trans is)
  booked is := by rw [window]; exact fits.booked (booked is)
  noShow is := window.trans (fits.noShow (noShow is))

section
variable (s : State)

theorem admitBooking_change (l : Leg) (h : Handle) : BookChange s (s.admitBooking l h) := by
  unfold State.admitBooking
  split
  case h_1 => exact .refl s
  case h_2 k r held =>
    have found := Book.held_find held
    split_ifs with lane noShow
    · have fits : r.Fits s.ring → Booking.Fits { r with state := .admitted } s.ring := fun fits =>
        fits.congr rfl (fun is => by cases is) fun is => by cases is
      rcases Option.eq_none_or_eq_some r.window with window | ⟨w, window⟩
      · exact .alike { r with state := .admitted } found rfl rfl rfl (by dsimp only; rw [window]) fits
          fun _ => .of_none window window
      · have notAdmitted : (r.state == .admitted) = false := by rw [lane.1]; rfl
        have counted := Ring.Recounts.addArrived (new := { r with state := .admitted }) window notAdmitted window rfl rfl s.ring
        exact .puts k r { r with state := .admitted } found rfl rfl rfl fits fun _ => by simpa only [window] using counted
    · exact .alike { r with state := .admitted, visit := some h } found rfl rfl rfl rfl
        (fun fits => fits.congr rfl (fun is => by cases is) fun is => by cases is)
        fun fits => .of_none (fits.noShow noShow) (fits.noShow noShow)
    · exact .refl s

theorem revertBooking_change (l : Leg) (h : Handle) : BookChange s (s.revertBooking l h) := by
  unfold State.revertBooking
  split
  case h_1 => exact .refl s
  case h_2 k r held =>
    have found := Book.held_find held
    by_cases own : (r.state = .inLane ∨ r.state = .admitted) ∧ r.visit = some h
    · rw [if_pos own]
      split
      case h_1 w window =>
        have fits : r.Fits s.ring → Booking.Fits { r with state := .booked, visit := none } s.ring := fun fits =>
          ⟨fits.inRing, fun _ gone => (by cases window.symm.trans gone), fun is => by cases is⟩
        by_cases admitted : r.state = .admitted
        · have counted := Ring.Recounts.subArrived (new := { r with state := .booked, visit := none }) window
            (by rw [admitted]; rfl) window rfl rfl s.ring
          refine .puts k r { r with state := .booked, visit := none } found rfl rfl rfl fits fun _ => ?_
          dsimp only
          rwa [if_pos admitted]
        · exact .alike { r with state := .booked, visit := none } found rfl rfl rfl (if_neg admitted) fits
            fun _ => .of_eq rfl rfl (beq_eq_false_iff_ne.2 admitted).symm
      case h_2 window =>
        exact .alike { r with state := .noShow, visit := none } found rfl rfl rfl rfl
          (fun fits => ⟨fits.inRing, fun is => (by cases is), fun _ => window⟩) fun _ => .of_none window window
    · rw [if_neg own]
      exact .refl s

theorem releaseBooking_change (l : Leg) (h : Handle) : BookChange s (s.releaseBooking l h) := by
  unfold State.releaseBooking
  split
  case h_1 => exact .refl s
  case h_2 k r held =>
    split_ifs
    · exact .alike { r with visit := none } (Book.held_find held) rfl rfl rfl rfl (fun fits => fits.congr rfl id id)
        fun _ => .of_eq rfl rfl rfl
    · exact .refl s

theorem Ring.transferTo_mem {r : Ring} {a : Nat} {k : Kind} {w : Window} (h : r.transferTo a k = some w) : w ∈ r.windows :=
  List.mem_of_mem_filter (List.mem_of_mem_take (List.mem_of_find?_eq_some h))

/-- The window that takes a claimed booking is in the ring (R35). -/
theorem claimOutcome_mem {r : Ring} {a : Nat} {b : Booking} {w : Window} (h : (claimOutcome r a b).2 = some w) :
    w ∈ r.windows := by
  unfold claimOutcome at h
  split at h
  · cases h
  · split at h
    · cases h
    · cases h
    · split at h
      case h_1 is =>
        cases h
        exact Ring.transferTo_mem is
      case h_2 => cases h

theorem formLeg_change (h : Handle) (a : Nat) (ref : Text) : BookChange s (s.formLeg h a ref).1 := by
  unfold State.formLeg
  split
  case h_1 => exact .refl s
  case h_2 k r finds =>
    have found := findBooking_find s finds
    split
    case h_1 booked =>
      have notAdmitted : (r.state == .admitted) = false := by rw [booked]; rfl
      dsimp only
      unfold State.claim
      split
      case h_1 =>
        exact .alike { r with state := .inLane, visit := some h } found rfl rfl rfl rfl
          (fun fits => fits.congr rfl (fun is => by cases is) fun is => by cases is)
          fun _ => .of_eq rfl rfl notAdmitted.symm
      case h_2 w taker =>
        refine .puts k r { r with state := .inLane, visit := some h, window := some w.start } found rfl rfl rfl
          (fun _ => ⟨fun a is => ⟨w, claimOutcome_mem taker, Option.some.inj is⟩, fun is => (by cases is), fun is => by cases is⟩)
          fun fits => ?_
        obtain ⟨old, window⟩ := Option.ne_none_iff_exists'.1 (fits.booked booked)
        have moved := Ring.Recounts.moveBooked (new := { r with state := .inLane, visit := some h, window := some w.start })
          window notAdmitted rfl rfl rfl s.ring
        dsimp only
        rwa [window]
    all_goals exact .refl s

theorem freeBooking_change {k : Nat} {r : Booking} (found : tableFind k s.book.records = some r)
    (windowless : r.state ≠ .booked → r.window = none ∨ r.state = .noShow) : BookChange s (freeBooking s k r) := by
  refine .removes k r found rfl rfl fun fits => ?_
  have none_ (window : r.window = none) : s.ring.Recounts s.ring [r] [] := by
    refine ⟨id, (List.map_id _).symm, fun w => ⟨rfl, fun k => .of_eq ?_, fun k => .of_eq ?_⟩⟩
    · rw [List.countP_singleton, Booking.bookedIn_of_none window]
      rfl
    · rw [List.countP_singleton, Booking.arrivedIn_eq, Booking.bookedIn_of_none window]
      rfl
  unfold freeBooking
  dsimp only
  split
  case h_1 booked window => exact .subBooked window (by rw [booked]; rfl) s.ring
  case h_2 other =>
    refine none_ ?_
    by_cases booked : r.state = .booked
    · cases window : r.window with
      | none => rfl
      | some w => exact absurd window (other w booked)
    · rcases windowless booked with window | noShow
      · exact window
      · exact fits.noShow noShow

/-- A BOOK_CREATE that no check refuses has a new reference and a window in the ring (R12). -/
theorem createCheck_none {s : State} {r : CreateReq} (h : createCheck s r = none) :
    s.book.lookup r.ref = none ∧ ∃ w, s.ring.find r.window = some w := by
  unfold createCheck at h
  dsimp only at h
  split at h
  · cases h
  · split at h
    · cases h
    · split at h
      · cases h
      · next known =>
        rw [Bool.not_eq_true, Option.isSome_eq_false_iff, Option.isNone_iff_eq_none] at known
        refine ⟨known, ?_⟩
        split at h
        case h_1 => cases h
        case h_2 w inRing => exact ⟨w, inRing⟩

/-- A BOOK_AMEND that no check refuses is for a BOOKED booking, and a window it gives is in the ring (R13). -/
theorem amendCheck_none {s : State} {r : AmendReq} {b : Booking} (h : amendCheck s r b = none) :
    b.state = .booked ∧ ∀ a, r.window = some a → ∃ w, s.ring.find a = some w := by
  unfold amendCheck at h
  split_ifs at h with lane past
  refine ⟨?_, fun a is => ?_⟩
  · cases state : b.state <;> simp_all
  · rw [is] at h
    dsimp only at h
    split at h
    case h_1 => cases h
    case h_2 w inRing => exact ⟨w, inRing⟩

theorem completeCreate_change (r : CreateReq) : BookChange s (completeCreate s r).state := by
  unfold completeCreate
  split
  case h_1 => exact .refl s
  case h_2 taken =>
    obtain ⟨unknown, w, inRing⟩ := createCheck_none taken
    have counted := Ring.Recounts.addBooked (new := r.booking) rfl rfl s.ring
    refine .inserts _ r.booking rfl unknown rfl ⟨fun a is => ?_, fun _ => Option.some_ne_none _, fun is => by cases is⟩
      counted
    obtain rfl := Option.some.inj is
    exact ⟨w, List.mem_of_find?_eq_some inRing, by simpa using List.find?_some inRing⟩

theorem Ring.moveBooked_self (r : Ring) (a : Option Nat) (k : Kind) : r.moveBooked a a k = r := by
  cases a with
  | none => rfl
  | some a => exact if_pos rfl

theorem completeAmend_change (r : AmendReq) : BookChange s (completeAmend s r).state := by
  unfold completeAmend
  split
  · exact .refl s
  · split
    case h_1 => exact .refl s
    case h_2 k _ =>
      split
      case h_1 => exact .refl s
      case h_2 b found =>
        split
        case h_1 => exact .refl s
        case h_2 taken =>
          obtain ⟨booked, inRing⟩ := amendCheck_none taken
          have notAdmitted : (b.state == .admitted) = false := by rw [booked]; rfl
          have notPast : ¬ (r.applyTo b).state = .noShow := by
            rw [show (r.applyTo b).state = b.state from rfl, booked]
            exact fun is => by cases is
          cases given : r.window with
          | none =>
            have window : (r.applyTo b).window = b.window := by rw [AmendReq.applyTo, given, Option.none_or]
            refine .alike (r.applyTo b) found rfl rfl rfl ?_ (fun fits => fits.congr window id id)
              fun _ => .of_eq window rfl rfl
            dsimp only
            rw [window, Ring.moveBooked_self]
          | some a =>
            have window : (r.applyTo b).window = some a := by rw [AmendReq.applyTo, given, Option.some_or]
            obtain ⟨w, there⟩ := inRing a given
            have start : w.start = a := by simpa using List.find?_some there
            refine .puts k b (r.applyTo b) found rfl rfl rfl (fun _ => ⟨fun c is => ?_, fun _ => ?_, fun is => absurd is notPast⟩)
              fun fits => ?_
            · cases window.symm.trans is
              exact ⟨w, List.mem_of_find?_eq_some there, start⟩
            · rw [window]
              exact Option.some_ne_none a
            · obtain ⟨old, was⟩ := Option.ne_none_iff_exists'.1 (fits.booked booked)
              have moved := Ring.Recounts.moveBooked (new := r.applyTo b) was notAdmitted window rfl notAdmitted s.ring
              dsimp only
              rwa [was, window]

theorem completeBooking_change (req : BookReq) : BookChange s (completeBooking s req).state := by
  cases req with
  | create r => exact completeCreate_change s r
  | amend r => exact completeAmend_change s r
  | cancel ref =>
    change BookChange s (completeCancel s ref).state
    unfold completeCancel
    split
    case h_1 => exact .refl s
    case h_2 k b finds =>
      have found := findBooking_find s finds
      split
      case h_1 => exact .refl s
      case h_2 => exact .refl s
      case h_3 booked => exact freeBooking_change s found fun other => absurd booked other
      case h_4 noShow => exact freeBooking_change s found fun _ => .inr noShow
  | retire ref =>
    change BookChange s (completeRetire s ref).state
    unfold completeRetire
    split
    case h_1 => exact .refl s
    case h_2 k b finds =>
      have found := findBooking_find s finds
      split
      case h_1 => exact .refl s
      case h_2 => exact .refl s
      case h_3 noShow => exact freeBooking_change s found fun _ => .inr noShow
      case h_4 =>
        split_ifs with open_ inUse
        · exact .refl s
        · exact .refl s
        · refine freeBooking_change s found fun _ => .inl ?_
          rwa [Bool.not_eq_true, Option.isSome_eq_false_iff, Option.isNone_iff_eq_none] at open_
  | query ref =>
    change BookChange s (completeQuery s ref).state
    unfold completeQuery
    split <;> exact .refl s
  | scan filter start =>
    change BookChange s (completeScan s filter start).state
    unfold completeScan
    split
    · exact .refl s
    · split <;> exact .refl s

end

theorem planCheck_empty {r : PlanReq} (h : planCheck s r = none) : s.book.live = 0 := by
  unfold planCheck at h
  split_ifs at h with _ _ occupied
  exact Nat.eq_zero_of_not_pos occupied

theorem Window.setQuotas_counts (w : Window) (quotas : List (Option Nat)) :
    (w.setQuotas quotas).start = w.start ∧ (w.setQuotas quotas).booked = w.booked
      ∧ (w.setQuotas quotas).arrived = w.arrived := by
  unfold Window.setQuotas
  split <;> exact ⟨rfl, rfl, rfl⟩

theorem BookMove.change (h : BookMove s t) : BookChange s t := by
  cases h with
  | revert l h => exact revertBooking_change s l h
  | admission l h => exact admitBooking_change s l h
  | release l h => exact releaseBooking_change s l h
  | form h a ref => exact formLeg_change s h a ref
  | complete req => exact completeBooking_change s req
  | retire =>
    unfold State.retireOne
    split
    case h_1 => exact .refl s
    case h_2 w rest oldest => exact .retires w rest oldest rfl rfl
  | plan r =>
    unfold servePlan
    split
    case h_1 => exact .refl s
    case h_2 taken =>
      refine .plans (planCheck_empty taken) rfl fun x mem => ?_
      obtain ⟨i, -, rfl⟩ := List.mem_map.1 mem
      exact ⟨rfl, rfl⟩
  | quotas r =>
    unfold serveWindowSet
    split
    · exact .refl s
    · split
      case h_1 => exact .refl s
      case h_2 =>
        refine .settings rfl (.of_counts rfl fun w => ?_)
        split
        · exact w.setQuotas_counts _
        · exact ⟨rfl, rfl, rfl⟩
  | defaults q =>
    unfold serveDefaultQuota
    split
    · exact .refl s
    · exact .of_windows rfl rfl
  | allowances a => exact .of_windows rfl rfl

/-! ### The book and the ring through a chain of acts -/

/-- What every update of the book and the ring keeps, every act keeps. -/
theorem Act.onBook {P : Book → Ring → Prop} (moves : ∀ s t, BookMove s t → P s.book s.ring → P t.book t.ring)
    (reset : P State.reset.book State.reset.ring) (act : Act T s t) (h : P s.book s.ring) : P t.book t.ring := by
  have same (book : t.book = s.book) (ring : t.ring = s.ring) : P t.book t.ring := by
    rw [book, ring]
    exact h
  cases act with
  | calm calm => exact same calm.book calm.ring
  | book move => exact moves s t move h
  | review v x y here aside => exact same aside.book aside.ring
  | wait v x y here aside => exact same aside.book aside.ring
  | place v x y dests here aside => exact same aside.book aside.ring
  | retry is =>
    subst is
    have frame := (retry_retries s).frame
    have book := congrArg State.book frame
    have ring := congrArg State.ring frame
    exact same book ring
  | depart n v x y resident releasing leaves => exact same leaves.book leaves.ring
  | reject n v x why resident leaves => exact same leaves.book leaves.ring
  | opens n v y free spot book ring => exact same book ring
  | close v x here gone aside => exact same aside.book aside.ring
  | finish v x i l here aside => exact same aside.book aside.ring
  | reset book ring =>
    rw [book, ring]
    exact reset

theorem Acts.onBook {P : Book → Ring → Prop} (moves : ∀ s t, BookMove s t → P s.book s.ring → P t.book t.ring)
    (reset : P State.reset.book State.reset.ring) (acts : Acts T s t) (h : P s.book s.ring) : P t.book t.ring := by
  induction acts with
  | refl => exact h
  | tail _ act ih => exact act.onBook moves reset ih

theorem BookMove.internal (h : BookMove s t) : Internal s t := by
  cases h with
  | revert l h => exact .revertBooking s l h
  | admission l h => exact .admitBooking s l h
  | release l h => exact .releaseBooking s l h
  | form h a ref => exact .formLeg s h a ref
  | complete req => exact .completeBooking s req
  | retire => exact .retireOne s
  | plan r => exact servePlan_internal r s
  | quotas r => exact serveWindowSet_internal r s
  | defaults q => exact serveDefaultQuota_internal q s
  | allowances a => exact .of_eq rfl rfl rfl rfl rfl rfl fun kept => kept.of_entries rfl rfl

/-! ### The index (R6 to R8) -/

/-- A book with the same index, whose records have the references they had. -/
theorem Book.Indexed.of_refs (h : b.Indexed) (index : c.index = b.index)
    (refs : ∀ k, (tableFind k c.records).map (·.ref) = (tableFind k b.records).map (·.ref)) : c.Indexed := by
  have live (k : Nat) : (tableFind k c.records).isSome = (tableFind k b.records).isSome := by
    rw [← Option.isSome_map (f := Booking.ref), refs, Option.isSome_map]
  have is (ref : Text) (k : Nat) : c.Matches ref k ↔ b.Matches ref k := by
    have := refs k
    unfold Book.Matches
    rw [← Option.map_eq_some_iff, ← Option.map_eq_some_iff, this]
  refine ⟨index ▸ h.rising, fun n k there => ?_, fun n m k there there' => ?_, fun k r found => ?_⟩
  · rw [live]
    exact h.entries n k (index ▸ there)
  · exact h.once n m k (index ▸ there) (index ▸ there')
  · obtain ⟨r', found', ref⟩ := Option.map_eq_some_iff.1 ((refs k).symm.trans (Option.map_eq_some_iff.2 ⟨r, found, rfl⟩))
    have looked := lookup_eq_some_iff.1 (h.found k r' found')
    rw [ref] at looked
    rw [lookup_eq_some_iff, index]
    simpa only [is] using looked

theorem tableFind_map {α β : Type} (f : α → β) (k : Nat) (l : List (Nat × α)) :
    tableFind k (l.map fun p => (p.1, f p.2)) = (tableFind k l).map f := by
  induction l with
  | nil => rfl
  | cons p l ih =>
    obtain ⟨a, v⟩ := p
    by_cases same : a = k <;> simp [tableFind, same, ih]

theorem sweepBooking_ref (a : Nat) (r : Booking) : (sweepBooking a r).ref = r.ref := by
  unfold sweepBooking
  split <;> rfl

theorem BookChange.indexed (h : BookChange s t) (kept : s.book.Kept) (indexed : s.book.Indexed) : t.book.Indexed := by
  cases h with
  | settings book => exact book ▸ indexed
  | puts k old new found ref records index =>
    refine indexed.of_refs index fun j => ?_
    rw [records]
    by_cases same : j = k
    · subst same
      rw [tableFind_tablePut_same, found]
      exact congrArg some ref
    · rw [tableFind_tablePut_other same]
  | inserts k new free unknown book =>
    rw [book]
    refine indexed.insert kept ?_ unknown
    rw [free]
    exact (tableLowestFree_spec 0 s.book.records kept.rising fun _ _ => Nat.zero_le _).1
  | removes k old found records index =>
    have removed := indexed.remove kept (Option.isSome_iff_exists.2 ⟨old, found⟩)
    exact removed.of_refs index fun j => by rw [records]
  | retires w rest oldest book =>
    refine indexed.of_refs (by rw [book]; rfl) fun j => ?_
    rw [book, Book.sweep, tableFind_map, Option.map_map]
    congr 1
    exact funext (sweepBooking_ref w.start)
  | plans empty book => exact book ▸ indexed

end Sys2Proof.Machine

open Sys2Proof Sys2Proof.Machine in
/-- Settles O56, update by update of the book. -/
theorem stepKeepsTheIndex : Obligations.StepKeepsTheIndex := by
  intro s t run kept indexed
  obtain ⟨-, -, -, resetKept, resetIndexed, -⟩ := resetHasTheInvariants
  have acts : Acts False s t := step_acts run nofun
  have whole : t.book.Kept ∧ t.book.Indexed :=
    acts.onBook (P := fun b _ => b.Kept ∧ b.Indexed)
      (fun _ _ move ⟨kept, indexed⟩ => ⟨move.internal.book kept, move.change.indexed kept indexed⟩)
      ⟨resetKept, resetIndexed⟩ ⟨kept, indexed⟩
  exact whole.2
end

section
/-!
PROOFS. The window counts (R27): O58.
-/

namespace Sys2Proof.Machine

variable {s t : State} {b c : Book} {r q : Ring} {w x : Window}

/-! ### The counts, of a book and a ring -/

/-- Every booking fits the ring, and every window's counts are those of its bookings (R27). -/
structure Tallied (b : Book) (r : Ring) : Prop where
  fits : ∀ p ∈ b.records, p.2.Fits r
  counts : ∀ x ∈ r.windows, ∀ k, x.booked.get k = b.records.countP (fun p => p.2.bookedIn x.start k)
    ∧ x.arrived.get k = b.records.countP fun p => p.2.arrivedIn x.start k

theorem counted_iff : s.Counted ↔ Tallied s.book s.ring :=
  ⟨fun h => ⟨fun p mem => ⟨h.inRing p mem, h.booked p mem, h.noShow p mem⟩, h.counts⟩,
    fun h => ⟨fun p mem => (h.fits p mem).inRing, fun p mem => (h.fits p mem).booked, fun p mem => (h.fits p mem).noShow,
      h.counts⟩⟩

theorem Booking.Fits.recounts {d : Booking} {old new : List Booking} (fits : d.Fits r) (h : r.Recounts q old new) :
    d.Fits q := by
  obtain ⟨f, windows, recounted⟩ := h
  refine ⟨fun a is => ?_, fits.booked, fits.noShow⟩
  obtain ⟨x, mem, start⟩ := fits.inRing a is
  exact ⟨f x, windows ▸ List.mem_map_of_mem mem, (recounted x).start.trans start⟩

/-- A count over a list, of whose entries some are replaced. -/
theorem Recount.replaced {p : Booking → Bool} {before after : List (Nat × Booking)} {old new : List (Nat × Booking)} {n m : Nat}
    (h : Recount p (old.map Prod.snd) (new.map Prod.snd) n m)
    (is : n = (before ++ old ++ after).countP fun e => p e.2) : m = (before ++ new ++ after).countP fun e => p e.2 := by
  have along (l : List (Nat × Booking)) : (l.map Prod.snd).countP p = l.countP fun e => p e.2 := List.countP_map
  unfold Recount at h
  rw [along, along] at h
  simp only [List.countP_append] at is ⊢
  omega

/-- Some records are replaced by others, which the windows' counts follow. -/
theorem Tallied.replaced {before after old new : List (Nat × Booking)} (h : Tallied b r)
    (records : b.records = before ++ old ++ after) (records' : c.records = before ++ new ++ after)
    (fits : ∀ p ∈ new, p.2.Fits r) (ring : r.Recounts q (old.map Prod.snd) (new.map Prod.snd)) : Tallied c q where
  fits p mem := by
    refine Booking.Fits.recounts ?_ ring
    rw [records', List.mem_append, List.mem_append] at mem
    rcases mem with (mem | mem) | mem
    · exact h.fits p (by rw [records]; simp [mem])
    · exact fits p mem
    · exact h.fits p (by rw [records]; simp [mem])
  counts x mem k := by
    obtain ⟨f, windows, recounted⟩ := ring
    rw [windows] at mem
    obtain ⟨w, inRing, rfl⟩ := List.mem_map.1 mem
    obtain ⟨booked, arrived⟩ := h.counts w inRing k
    rw [records] at booked arrived
    rw [records', (recounted w).start]
    exact ⟨((recounted w).booked k).replaced booked, ((recounted w).arrived k).replaced arrived⟩

/-! ### Retirement (R22, R30) -/

/-- The starts rise along the ring by its span (R25, R26). -/
theorem Ring.Kept.start_eq {rest : List Window} (kept : r.Kept) (oldest : r.windows = w :: rest) (i : Nat)
    (at_ : r.windows[i]? = some x) : x.start = w.start + i * r.span := by
  induction i generalizing x with
  | zero =>
    rw [oldest] at at_
    cases at_
    rw [Nat.zero_mul, Nat.add_zero]
  | succ i ih =>
    have before : i < r.windows.length := by
      have := (List.getElem?_eq_some_iff.1 at_).1
      omega
    rw [kept.rising i _ x (List.getElem?_eq_getElem before) at_, ih (List.getElem?_eq_getElem before), Nat.succ_mul]
    omega

/-- No newer window starts with the oldest. -/
theorem Ring.Kept.start_ne {rest : List Window} (kept : r.Kept) (oldest : r.windows = w :: rest) (mem : x ∈ rest) :
    x.start ≠ w.start := by
  obtain ⟨i, at_⟩ := List.mem_iff_getElem?.1 mem
  have start := kept.start_eq oldest (i + 1) (by rw [oldest]; exact at_)
  have span := kept.span (by rw [oldest]; exact List.cons_ne_nil w rest)
  rw [start, Nat.succ_mul]
  omega

/-- The window that retirement appends starts after every window of the ring (R30). -/
theorem Ring.Kept.next_ne {newest : Window} (kept : r.Kept) (last : r.windows.getLast? = some newest) (mem : x ∈ r.windows) :
    x.start ≠ newest.start + r.span := by
  have span := kept.span (List.ne_nil_of_mem mem)
  obtain ⟨w, rest, oldest⟩ := List.exists_cons_of_ne_nil (List.ne_nil_of_mem mem)
  obtain ⟨i, at_⟩ := List.mem_iff_getElem?.1 mem
  have less := (List.getElem?_eq_some_iff.1 at_).1
  rw [List.getLast?_eq_getElem?] at last
  rw [kept.start_eq oldest i at_, kept.start_eq oldest _ last]
  have : i * r.span ≤ (r.windows.length - 1) * r.span := Nat.mul_le_mul_right _ (by omega)
  omega

/-- The windows of a ring whose oldest retires: the newer ones, and perhaps one more (R30). -/
theorem Ring.advance_windows {rest : List Window} (kept : r.Kept) (oldest : r.windows = w :: rest) :
    (∀ x ∈ rest, x ∈ r.advance.windows) ∧ ∀ x ∈ r.advance.windows, x ∈ rest
      ∨ x.booked = .all 0 ∧ x.arrived = .all 0 ∧ ∀ y ∈ r.windows, y.start ≠ x.start := by
  obtain ⟨newest, last⟩ : ∃ newest, r.windows.getLast? = some newest := by
    rw [oldest, List.getLast?_cons]
    exact ⟨_, rfl⟩
  have advanced : r.advance.windows
      = if newest.start + r.span ≤ Config.maxMinute then rest ++ [r.fresh (newest.start + r.span)] else rest := by
    unfold Ring.advance
    split
    case h_1 v rest' newest' cons last' =>
      rw [oldest] at cons
      cases cons
      cases last.symm.trans last'
      rfl
    case h_2 none_ => exact absurd last (none_ w rest newest oldest)
  rw [advanced]
  split
  · refine ⟨fun x mem => List.mem_append_left _ mem, fun x mem => ?_⟩
    rcases List.mem_append.1 mem with mem | mem
    · exact .inl mem
    · rw [List.mem_singleton] at mem
      subst mem
      exact .inr ⟨rfl, rfl, fun y mem => kept.next_ne last mem⟩
  · exact ⟨fun x mem => mem, fun x mem => .inl mem⟩

/-- The sweep leaves the counts of every window but the one that retires (R22). -/
theorem sweepBooking_bookedIn {a d : Nat} (other : d ≠ a) (p : Booking) (k : Kind) :
    (sweepBooking a p).bookedIn d k = p.bookedIn d k ∧ (sweepBooking a p).arrivedIn d k = p.arrivedIn d k := by
  unfold sweepBooking
  split
  · next window =>
    have never : p.bookedIn d k = false := Booking.bookedIn_elsewhere window other k
    rw [Booking.arrivedIn_eq, Booking.arrivedIn_eq, never, Booking.bookedIn_of_none rfl]
    exact ⟨rfl, rfl⟩
  · exact ⟨rfl, rfl⟩

theorem window_of_sweepBooking {a d : Nat} {p : Booking} (h : (sweepBooking a p).window = some d) : p.window = some d := by
  unfold sweepBooking at h
  split at h
  · cases h
  · exact h

theorem sweepBooking_fits {rest : List Window} (kept : r.Kept) (oldest : r.windows = w :: rest) {p : Booking}
    (fits : p.Fits r) : (sweepBooking w.start p).Fits r.advance := by
  unfold sweepBooking
  split
  · next window =>
    refine ⟨fun a is => (by cases is), fun is => ?_, fun _ => rfl⟩
    dsimp only at is
    split at is
    · cases is
    · next notBooked => exact absurd is notBooked
  · next other =>
    refine ⟨fun a is => ?_, fits.booked, fits.noShow⟩
    obtain ⟨x, mem, start⟩ := fits.inRing a is
    rw [oldest] at mem
    rcases List.mem_cons.1 mem with rfl | mem
    · exact absurd (start ▸ is) other
    · exact ⟨x, (Ring.advance_windows kept oldest).1 x mem, start⟩

theorem Tallied.retired {rest : List Window} (h : Tallied b r) (kept : r.Kept) (oldest : r.windows = w :: rest) :
    Tallied (b.sweep w.start) r.advance where
  fits p mem := by
    obtain ⟨e, live, rfl⟩ := List.mem_map.1 mem
    exact sweepBooking_fits kept oldest (h.fits e live)
  counts x mem k := by
    unfold Book.sweep
    dsimp only
    rw [List.countP_map, List.countP_map]
    rcases (Ring.advance_windows kept oldest).2 x mem with newer | ⟨booked, arrived, apart⟩
    · have same := fun p => sweepBooking_bookedIn (kept.start_ne oldest newer) p k
      have counts := h.counts x (by rw [oldest]; exact List.mem_cons_of_mem w newer) k
      simp only [Function.comp_def, same]
      exact counts
    · have never (e : Nat × Booking) (live : e ∈ b.records) : (sweepBooking w.start e.2).bookedIn x.start k = false := by
        by_contra counted
        rw [Bool.not_eq_false, Booking.bookedIn, Bool.and_eq_true, beq_iff_eq] at counted
        obtain ⟨y, inRing, start⟩ := (h.fits e live).inRing x.start (window_of_sweepBooking counted.1)
        exact apart y inRing start
      rw [booked, arrived, eq_comm, List.countP_eq_zero.2 fun e live => by simp [never e live], eq_comm,
        List.countP_eq_zero.2 fun e live => by simp [Booking.arrivedIn_eq, never e live]]
      cases k <;> exact ⟨rfl, rfl⟩

theorem BookChange.tallied (h : BookChange s t) (ringKept : s.ring.Kept) (kept : s.book.Kept) (tallied : Tallied s.book s.ring) :
    Tallied t.book t.ring := by
  cases h with
  | settings book ring =>
    refine tallied.replaced (before := s.book.records) (old := []) (new := []) (after := []) (by simp) (by simp [book])
      (fun p mem => by cases mem) ring
  | puts k old new found ref records index fits ring =>
    obtain ⟨before, after, split, -, put⟩ := table_split kept.rising found
    have oldFits := tallied.fits _ (mem_of_tableFind found)
    refine tallied.replaced (before := before) (old := [(k, old)]) (new := [(k, new)]) (after := after) (by simp [split])
      (by rw [records, put]; simp) (fun p mem => ?_) (ring oldFits)
    rw [List.mem_singleton.1 mem]
    exact fits oldFits
  | inserts k new free unknown book fits ring =>
    have fresh : tableFind k s.book.records = none := by
      rw [free]
      exact (tableLowestFree_spec 0 s.book.records kept.rising fun _ _ => Nat.zero_le _).1
    obtain ⟨before, after, split, put⟩ := tablePut_fresh (v := new) fresh
    refine tallied.replaced (before := before) (old := []) (new := [(k, new)]) (after := after) (by simp [split])
      (by rw [book, Book.insert, put]; simp) (fun p mem => ?_) ring
    rw [List.mem_singleton.1 mem]
    exact fits
  | removes k old found records index ring =>
    obtain ⟨before, after, split, del, -⟩ := table_split kept.rising found
    exact tallied.replaced (before := before) (old := [(k, old)]) (new := []) (after := after) (by simp [split])
      (by rw [records, Book.remove, del]; simp) (fun p mem => by cases mem) (ring (tallied.fits _ (mem_of_tableFind found)))
  | retires w rest oldest book ring =>
    rw [book, ring]
    exact tallied.retired ringKept oldest
  | plans empty book ring =>
    have none_ : s.book.records = [] := List.eq_nil_of_length_eq_zero (kept.live.symm.trans empty)
    rw [book]
    refine ⟨fun p mem => ?_, fun x mem k => ?_⟩
    · rw [none_] at mem
      cases mem
    · obtain ⟨booked, arrived⟩ := ring x mem
      rw [booked, arrived, none_]
      cases k <;> exact ⟨rfl, rfl⟩

end Sys2Proof.Machine

open Sys2Proof Sys2Proof.Machine in
/-- Settles O58, update by update of the book and the ring. -/
theorem stepKeepsTheWindowCounts : Obligations.StepKeepsTheWindowCounts := by
  intro s t run ringKept bookKept counted
  obtain ⟨-, -, resetRing, resetBook, -, -, resetCounted, -⟩ := resetHasTheInvariants
  have acts : Acts False s t := step_acts run nofun
  have whole : t.ring.Kept ∧ t.book.Kept ∧ Tallied t.book t.ring :=
    acts.onBook (P := fun b r => r.Kept ∧ b.Kept ∧ Tallied b r)
      (fun _ _ move ⟨ringKept, bookKept, tallied⟩ =>
        ⟨move.internal.ring ringKept, move.internal.book bookKept, move.change.tallied ringKept bookKept tallied⟩)
      ⟨resetRing, resetBook, counted_iff.1 resetCounted⟩ ⟨ringKept, bookKept, counted_iff.1 counted⟩
  exact counted_iff.2 whole.2.2
end

section
/-!
PROOFS. What the yard reserves, against the legs of the open visits, slot by slot (R150, R162, R166): the ledger on which
O59 rests.
-/

namespace Sys2Proof.Machine

variable {s t : State} {v : Fin 64} {x y : Visit} {legs : List Leg} {l : Leg} {h : Handle} {b : Fin 48} {c : Fin 4} {i : Nat}
variable {dests : List (Option Dest)}

/-! ### The legs of a slot -/

/-- The legs of the visit in a slot; a free slot has none. -/
def State.legsAt (s : State) (v : Fin 64) : List Leg := ((s.visit v).map (·.legs)).getD []

theorem legsAt_of_open (here : s.visit v = some x) : s.legsAt v = x.legs := by rw [State.legsAt, here]; rfl

theorem legsAt_of_free (free : s.visit v = none) : s.legsAt v = [] := by rw [State.legsAt, free]; rfl

/-- A leg of a list, by its number, stands in a bay (R166). -/
def StandsAt (legs : List Leg) (i : Nat) (c : Fin 4) : Prop := 1 ≤ i ∧ ∃ l, legs[i - 1]? = some l ∧ l.standsIn c = true

theorem reservedTeu_cons (b : Fin 48) (l : Leg) (legs : List Leg) :
    reservedTeu b (l :: legs) = l.reservedTeu b + reservedTeu b legs := by
  rw [reservedTeu, List.filter_cons, Leg.reservedTeu]
  split
  · rfl
  · rw [Nat.zero_add]
    rfl

/-- Two lists of legs that hold alike. -/
structure HoldAlike (legs legs' : List Leg) : Prop where
  reserved : ∀ b, reservedTeu b legs' = reservedTeu b legs
  stands : ∀ i c, StandsAt legs' i c ↔ StandsAt legs i c

theorem HoldAlike.refl (legs : List Leg) : HoldAlike legs legs := ⟨fun _ => rfl, fun _ _ => .rfl⟩

theorem reservedTeu_unjudged (b : Fin 48) (legs : List Leg) : reservedTeu b (legs.map Leg.unjudged) = reservedTeu b legs := by
  induction legs with
  | nil => rfl
  | cons l legs ih =>
    rw [List.map_cons, reservedTeu_cons, reservedTeu_cons, ih]
    rfl

theorem standsAt_unjudged : StandsAt (legs.map Leg.unjudged) i c ↔ StandsAt legs i c := by
  unfold StandsAt
  rw [List.getElem?_map]
  refine and_congr_right fun _ => ⟨?_, ?_⟩
  · rintro ⟨l, at_, stands⟩
    obtain ⟨k, here, rfl⟩ := Option.map_eq_some_iff.1 at_
    exact ⟨k, here, stands⟩
  · rintro ⟨l, at_, stands⟩
    exact ⟨l.unjudged, by rw [at_]; rfl, stands⟩

/-- The findings of a leg hold nothing. -/
theorem HoldAlike.of_unjudged {legs' : List Leg} (same : legs'.map Leg.unjudged = legs.map Leg.unjudged) :
    HoldAlike legs legs' where
  reserved b := by rw [← reservedTeu_unjudged, same, reservedTeu_unjudged]
  stands i c := by rw [← standsAt_unjudged, same, standsAt_unjudged]

/-- Legs that hold nothing. -/
def HoldNothing (legs : List Leg) : Prop := ∀ l ∈ legs, (∀ b, l.reserves b = false) ∧ ∀ c, l.standsIn c = false

theorem HoldNothing.reservedTeu_eq (none_ : HoldNothing legs) (b : Fin 48) : reservedTeu b legs = 0 := by
  rw [reservedTeu, List.filter_eq_nil_iff.2 fun l mem => by simp [(none_ l mem).1 b]]
  rfl

theorem HoldNothing.not_standsAt (none_ : HoldNothing legs) : ¬ StandsAt legs i c := by
  rintro ⟨-, l, at_, stands⟩
  exact Bool.false_ne_true (((none_ l (List.mem_of_getElem? at_)).2 c).symm.trans stands)

theorem HoldNothing.alike {legs' : List Leg} (none_ : HoldNothing legs) (none' : HoldNothing legs') : HoldAlike legs legs' :=
  ⟨fun b => by rw [none_.reservedTeu_eq, none'.reservedTeu_eq],
    fun _ _ => ⟨fun is => absurd is none'.not_standsAt, fun is => absurd is none_.not_standsAt⟩⟩

theorem HoldNothing.of_dest (none_ : ∀ l ∈ legs, l.dest = none) : HoldNothing legs := fun l mem =>
  ⟨fun _ => Leg.reserves_of_dest (by rw [none_ l mem]; exact (Option.some_ne_none _).symm),
    fun _ => Leg.standsIn_of_dest (by rw [none_ l mem]; exact (Option.some_ne_none _).symm)⟩

/-- A rejected visit's legs hold nothing: those not done are dropped (R83). -/
theorem HoldNothing.rejected (x : Visit) (why : RejectReason) : HoldNothing (x.rejected why).legs := by
  intro l mem
  obtain ⟨k, -, rfl⟩ := List.mem_map.1 mem
  split
  · next done => exact ⟨fun b => by simp [Leg.reserves, done], fun c => by simp [Leg.standsIn, done]⟩
  · exact ⟨fun b => Leg.reserves_of_dest (Option.some_ne_none _).symm,
      fun c => Leg.standsIn_of_dest (Option.some_ne_none _).symm⟩

/-! ### The ledger (R150, R162, R166) -/

/-- The yard's reservations and places are those of the slots' legs. -/
structure State.Balanced (s : State) : Prop where
  reserved : ∀ b : Fin 48, s.yard.blocks[b].reserved = ∑ v, reservedTeu b (s.legsAt v)
  places : ∀ (c : Fin 4) (p : Place), p ∈ s.yard.bays[c].places
    ↔ s.handle p.handle.slot = p.handle ∧ StandsAt (s.legsAt p.handle.slot) p.leg c

/-- The bays' places are two at most, each once (R166). -/
def State.BaysKept (s : State) : Prop := ∀ c : Fin 4, s.yard.bays[c].places.Nodup ∧ s.yard.bays[c].places.length ≤ 2

theorem reserved_iff (s : State) (b : Fin 48) :
    ((List.finRange 64).map fun v => ((s.visit v).map fun x => reservedTeu b x.legs).getD 0).sum
      = ∑ v, reservedTeu b (s.legsAt v) := by
  rw [Fin.sum_univ_def]
  congr 2
  funext v
  rw [State.legsAt]
  cases s.visit v <;> rfl

theorem places_iff (s : State) (c : Fin 4) (p : Place) :
    (∃ x l, s.named p.handle = some x ∧ 1 ≤ p.leg ∧ x.legs[p.leg - 1]? = some l ∧ l.standsIn c = true)
      ↔ s.handle p.handle.slot = p.handle ∧ StandsAt (s.legsAt p.handle.slot) p.leg c := by
  constructor
  · rintro ⟨x, l, named, first, at_, stands⟩
    obtain ⟨handle, here⟩ := named_eq_some.1 named
    exact ⟨handle, first, l, by rw [legsAt_of_open here, at_], stands⟩
  · rintro ⟨handle, first, l, at_, stands⟩
    cases here : s.visit p.handle.slot with
    | none =>
      rw [legsAt_of_free here] at at_
      cases at_
    | some x =>
      rw [legsAt_of_open here] at at_
      exact ⟨x, l, named_eq_some.2 ⟨handle, here⟩, first, at_, stands⟩

/-- The ledger of a yard and slots that hold alike. -/
theorem State.Balanced.congr (balanced : s.Balanced) (handles : ∀ v, t.handle v = s.handle v)
    (legs : ∀ v, HoldAlike (s.legsAt v) (t.legsAt v))
    (reserved : ∀ b : Fin 48, t.yard.blocks[b].reserved = s.yard.blocks[b].reserved)
    (places : ∀ c : Fin 4, t.yard.bays[c].places = s.yard.bays[c].places) : t.Balanced where
  reserved b := by
    rw [reserved, balanced.reserved]
    exact Finset.sum_congr rfl fun v _ => ((legs v).reserved b).symm
  places c p := by rw [places, balanced.places, handles, (legs _).stands]

/-- One slot's legs change, and the yard with them. -/
theorem State.Balanced.turn (balanced : s.Balanced)
    (others : ∀ w, w ≠ v → t.handle w = s.handle w ∧ t.legsAt w = s.legsAt w)
    (reserved : ∀ b : Fin 48, reservedTeu b (s.legsAt v) ≤ s.yard.blocks[b].reserved →
      t.yard.blocks[b].reserved + reservedTeu b (s.legsAt v) = s.yard.blocks[b].reserved + reservedTeu b (t.legsAt v))
    (places : ∀ (c : Fin 4) (p : Place), p ∈ t.yard.bays[c].places
      ↔ (p.handle.slot ≠ v ∧ p ∈ s.yard.bays[c].places) ∨ (p.handle = t.handle v ∧ StandsAt (t.legsAt v) p.leg c)) :
    t.Balanced where
  reserved b := by
    have split (u : State) : ∑ w, reservedTeu b (u.legsAt w)
        = reservedTeu b (u.legsAt v) + ∑ w ∈ Finset.univ.erase v, reservedTeu b (u.legsAt w) :=
      (Finset.add_sum_erase _ _ (Finset.mem_univ v)).symm
    have rest : ∑ w ∈ Finset.univ.erase v, reservedTeu b (t.legsAt w)
        = ∑ w ∈ Finset.univ.erase v, reservedTeu b (s.legsAt w) :=
      Finset.sum_congr rfl fun w mem => by rw [(others w (Finset.ne_of_mem_erase mem)).2]
    have was := balanced.reserved b
    have turned := reserved b
    rw [split] at was
    rw [split, rest]
    omega
  places c p := by
    rw [places]
    by_cases same : p.handle.slot = v
    · rw [same]
      constructor
      · rintro (⟨other, -⟩ | ⟨is, stands⟩)
        · exact absurd rfl other
        · exact ⟨is.symm, stands⟩
      · rintro ⟨is, stands⟩
        exact .inr ⟨is.symm, stands⟩
    · obtain ⟨handle, legs⟩ := others _ same
      rw [handle, legs, balanced.places]
      constructor
      · rintro (⟨-, is⟩ | ⟨is, -⟩)
        · exact is
        · exact absurd (congrArg Handle.slot is) same
      · exact fun is => .inl ⟨same, is⟩

/-- The places of a slot, in a ledger. -/
theorem State.Balanced.mem_places (balanced : s.Balanced) (v : Fin 64) (c : Fin 4) (p : Place) :
    p ∈ s.yard.bays[c].places
      ↔ (p.handle.slot ≠ v ∧ p ∈ s.yard.bays[c].places) ∨ (p.handle = s.handle v ∧ StandsAt (s.legsAt v) p.leg c) := by
  constructor
  · intro mem
    by_cases same : p.handle.slot = v
    · obtain ⟨handle, stands⟩ := (balanced.places c p).1 mem
      exact .inr ⟨by rw [← handle, same], same ▸ stands⟩
    · exact .inl ⟨same, mem⟩
  · rintro (⟨-, mem⟩ | ⟨is, stands⟩)
    · exact mem
    · have slot : p.handle.slot = v := congrArg Handle.slot is
      rw [balanced.places, slot]
      exact ⟨is.symm, stands⟩

/-! ### What is given back (R178) -/

theorem givenBack_reserved (yard : Yard) (h : Handle) (legs : List Leg) (b : Fin 48) :
    (yard.givenBack h legs).blocks[b].reserved = yard.blocks[b].reserved - reservedTeu b legs := by
  simp [Yard.givenBack]

theorem mem_givenBack (yard : Yard) (h : Handle) (legs : List Leg) (c : Fin 4) (p : Place) :
    p ∈ (yard.givenBack h legs).bays[c].places
      ↔ p ∈ yard.bays[c].places ∧ ¬ (p.handle = h ∧ StandsAt legs p.leg c) := by
  have is : (legs.zipIdx.any fun e => p == ⟨h, e.2 + 1⟩ && e.1.standsIn c) = true
      ↔ p.handle = h ∧ StandsAt legs p.leg c := by
    simp only [List.any_eq_true, Bool.and_eq_true, beq_iff_eq, Prod.exists, List.mem_zipIdx_iff_getElem?]
    constructor
    · rintro ⟨l, i, at_, rfl, stands⟩
      exact ⟨rfl, Nat.le_add_left 1 i, l, at_, stands⟩
    · rintro ⟨rfl, first, l, at_, stands⟩
      refine ⟨l, p.leg - 1, at_, ?_, stands⟩
      rw [Nat.sub_add_cancel first]
  rw [← is]
  simp [Yard.givenBack]

/-- A slot's legs give back what they hold, and hold nothing then. -/
theorem State.Balanced.givenBack (balanced : s.Balanced)
    (others : ∀ w, w ≠ v → t.handle w = s.handle w ∧ t.legsAt w = s.legsAt w) (none_ : HoldNothing (t.legsAt v))
    (blocks : t.yard.blocks = (s.yard.givenBack (s.handle v) (s.legsAt v)).blocks)
    (bays : t.yard.bays = (s.yard.givenBack (s.handle v) (s.legsAt v)).bays) : t.Balanced := by
  refine balanced.turn others (fun b within => ?_) fun c p => ?_
  · rw [blocks, givenBack_reserved, none_.reservedTeu_eq]
    omega
  · rw [bays, mem_givenBack]
    constructor
    · rintro ⟨mem, apart⟩
      rcases (balanced.mem_places v c p).1 mem with other | own
      · exact .inl other
      · exact absurd own apart
    · rintro (⟨other, mem⟩ | ⟨-, stands⟩)
      · exact ⟨mem, fun is => other (congrArg Handle.slot is.1)⟩
      · exact absurd stands none_.not_standsAt

theorem State.BaysKept.of_sublist (kept : s.BaysKept)
    (places : ∀ c : Fin 4, t.yard.bays[c].places.Sublist s.yard.bays[c].places) : t.BaysKept := fun c =>
  ⟨(kept c).1.sublist (places c), (places c).length_le.trans (kept c).2⟩

theorem givenBack_sublist (yard : Yard) (h : Handle) (legs : List Leg) (c : Fin 4) :
    (yard.givenBack h legs).bays[c].places.Sublist yard.bays[c].places := by
  simp [Yard.givenBack]

/-! ### What an allocation takes (R168) -/

/-- A destination that the rules give follows the leg's disposition (R169 to R171). -/
theorem State.GivesAt.follows {before : Fin 48 → Nat} {inBay : Fin 4 → Nat} {d : Dest} (gives : s.GivesAt before inBay l d) :
    (∀ b, d = .block b → l.disposition = .yard) ∧ ∀ c, d = .bay c → l.disposition = .inspect := by
  cases d with
  | block b => exact ⟨fun _ _ => gives.1, fun _ is => by cases is⟩
  | bay c => exact ⟨fun _ is => (by cases is), fun _ _ => gives.1⟩

/-- The TEU that a leg reserves with its destination is what the allocation takes for it. -/
theorem reservedTeu_setDest {d : Dest} (placed : l.IsPlaced) (block : ∀ b, d = .block b → l.disposition = .yard) (b : Fin 48) :
    (l.setDest (some d)).reservedTeu b = takenTeu l (some d) b := by
  obtain ⟨-, done⟩ := placed
  by_cases is : d = .block b
  · subst is
    have yard := block b rfl
    simp [Leg.reservedTeu, Leg.reserves, Leg.setDest, takenTeu, yard, done]
  · have other : (some d == some (Dest.block b)) = false := by simpa using is
    simp [Leg.reservedTeu, Leg.reserves, Leg.setDest, takenTeu, other]

/-- The destinations follow the legs: none for a leg passed over, and one of its disposition for a leg placed. -/
def Directed (legs : List Leg) (dests : List (Option Dest)) : Prop :=
  List.Forall₂ (fun l d => (¬ l.IsPlaced → d = none) ∧ (l.IsPlaced → ∃ e, d = some e
    ∧ (∀ b, e = .block b → l.disposition = .yard) ∧ ∀ c, e = .bay c → l.disposition = .inspect)) legs dests

theorem State.Fits.directed {before : Fin 48 → Nat} {inBay : Fin 4 → Nat} (fits : s.Fits before inBay legs dests) :
    Directed legs dests := by
  induction legs generalizing dests before inBay with
  | nil =>
    rw [fits_nil] at fits
    rw [fits]
    exact .nil
  | cons l legs ih =>
    cases dests with
    | nil => cases fits.1
    | cons d dests =>
      obtain ⟨⟨passed, placed⟩, rest⟩ := fits_cons.1 fits
      refine .cons ⟨passed, fun is => ?_⟩ (ih rest)
      obtain ⟨e, same, gives⟩ := placed is
      exact ⟨e, same, gives.follows⟩

theorem reservedTeu_directed (directed : Directed legs dests) (free : ∀ l ∈ legs, l.dest = none) (b : Fin 48) :
    reservedTeu b (List.zipWith Leg.setDest legs dests) = tentative legs dests legs.length b := by
  induction directed with
  | nil => rfl
  | @cons l d legs dests head _ ih =>
    rw [List.zipWith_cons_cons, reservedTeu_cons, List.length_cons, tentative_succ,
      ih fun l mem => free l (List.mem_cons_of_mem _ mem)]
    congr 1
    by_cases placed : l.IsPlaced
    · obtain ⟨e, rfl, block, -⟩ := head.2 placed
      exact reservedTeu_setDest placed block b
    · rw [head.1 placed]
      have none_ : l.reserves b = false := Leg.reserves_of_dest (by rw [free l List.mem_cons_self]; exact nofun)
      simp [Leg.setDest, Leg.reservedTeu, none_, takenTeu]

theorem standsIn_setDest {d : Option Dest} (free : l.dest = none) (passed : ¬ l.IsPlaced → d = none)
    (placed : l.IsPlaced → ∃ e, d = some e ∧ (∀ b, e = .block b → l.disposition = .yard)
      ∧ ∀ c, e = .bay c → l.disposition = .inspect) (c : Fin 4) :
    (l.setDest d).standsIn c = true ↔ d = some (.bay c) := by
  by_cases is : l.IsPlaced
  · obtain ⟨e, rfl, -, bay⟩ := placed is
    rw [Option.some_inj]
    refine ⟨fun stands => ?_, fun same => ?_⟩
    · simp only [Leg.standsIn, Leg.setDest, Bool.and_eq_true, beq_iff_eq, Option.some_inj] at stands
      exact stands.2
    · subst same
      simp [Leg.standsIn, Leg.setDest, bay c rfl, is.2]
  · rw [passed is]
    simp [Leg.setDest, Leg.standsIn, free]

theorem standsAt_directed (directed : Directed legs dests) (free : ∀ l ∈ legs, l.dest = none) :
    StandsAt (List.zipWith Leg.setDest legs dests) i c ↔ 1 ≤ i ∧ dests[i - 1]? = some (some (.bay c)) := by
  unfold StandsAt
  refine and_congr_right fun _ => ?_
  generalize i - 1 = j
  induction directed generalizing j with
  | nil => simp
  | @cons l d legs dests head _ ih =>
    cases j with
    | zero =>
      simp only [List.zipWith_cons_cons, List.getElem?_cons_zero, Option.some_inj, exists_eq_left']
      exact standsIn_setDest (free l List.mem_cons_self) head.1 head.2 c
    | succ j =>
      simp only [List.zipWith_cons_cons, List.getElem?_cons_succ]
      exact ih (fun l mem => free l (List.mem_cons_of_mem _ mem)) j

/-- The places that an allocation gives in a bay (R166). -/
def givenPlaces (h : Handle) (dests : List (Option Dest)) (c : Fin 4) : List Place :=
  (dests.zipIdx.filter fun e => e.1 == some (.bay c)).map fun e => ⟨h, e.2 + 1⟩

theorem committed_reserved (yard : Yard) (h : Handle) (legs : List Leg) (dests : List (Option Dest)) (b : Fin 48) :
    (yard.committed h legs dests).blocks[b].reserved = yard.blocks[b].reserved + tentative legs dests legs.length b := by
  simp [Yard.committed]

theorem committed_places (yard : Yard) (h : Handle) (legs : List Leg) (dests : List (Option Dest)) (c : Fin 4) :
    (yard.committed h legs dests).bays[c].places = yard.bays[c].places ++ givenPlaces h dests c := by
  simp [Yard.committed, givenPlaces]

theorem mem_givenPlaces {p : Place} :
    p ∈ givenPlaces h dests c ↔ p.handle = h ∧ 1 ≤ p.leg ∧ dests[p.leg - 1]? = some (some (.bay c)) := by
  simp only [givenPlaces, List.mem_map, List.mem_filter, beq_iff_eq, Prod.exists, List.mem_zipIdx_iff_getElem?]
  constructor
  · rintro ⟨d, i, ⟨at_, rfl⟩, rfl⟩
    exact ⟨rfl, Nat.le_add_left 1 i, at_⟩
  · rintro ⟨rfl, first, at_⟩
    refine ⟨_, p.leg - 1, ⟨at_, rfl⟩, ?_⟩
    rw [Nat.sub_add_cancel first]

theorem givenPlaces_nodup (h : Handle) (dests : List (Option Dest)) (c : Fin 4) : (givenPlaces h dests c).Nodup := by
  have given : ((dests.zipIdx.filter fun e => e.1 == some (.bay c)).map Prod.snd).Nodup :=
    (List.nodup_zipIdx_map_snd dests).sublist (List.Sublist.map Prod.snd List.filter_sublist)
  have places : givenPlaces h dests c
      = ((dests.zipIdx.filter fun e => e.1 == some (.bay c)).map Prod.snd).map fun i => ⟨h, i + 1⟩ := by
    rw [List.map_map]
    rfl
  rw [places]
  exact given.map fun i j same => by simpa using same

theorem length_givenPlaces (h : Handle) (dests : List (Option Dest)) (c : Fin 4) :
    (givenPlaces h dests c).length = dests.count (some (.bay c)) := by
  have fsts := congrArg (List.countP fun d => d == some (Dest.bay c)) (List.zipIdx_map_fst 0 dests)
  rw [List.countP_map] at fsts
  rw [givenPlaces, List.length_map, ← List.countP_eq_length_filter]
  exact fsts

/-- A bay takes no third leg (R171). -/
theorem State.Fits.count_le {before : Fin 48 → Nat} {inBay : Fin 4 → Nat} (fits : s.Fits before inBay legs dests) (c : Fin 4)
    (room : s.yard.bays[c].places.length + inBay c ≤ 2) :
    s.yard.bays[c].places.length + inBay c + dests.count (some (.bay c)) ≤ 2 := by
  induction legs generalizing dests before inBay with
  | nil =>
    rw [fits_nil] at fits
    rw [fits, List.count_nil]
    exact room
  | cons l legs ih =>
    cases dests with
    | nil => exact room
    | cons d dests =>
      obtain ⟨⟨passed, placed⟩, rest⟩ := fits_cons.1 fits
      have next : s.yard.bays[c].places.length + (inBay c + [d].count (some (.bay c))) ≤ 2 := by
        by_cases is : d = some (.bay c)
        · subst is
          have placing : l.IsPlaced := by
            by_contra other
            cases passed other
          obtain ⟨e, same, gives⟩ := placed placing
          cases same
          obtain ⟨-, -, before', after, -, ⟨-, less⟩, -⟩ := gives
          simp only [List.count_singleton_self]
          omega
        · simp [List.count_singleton, is]
          exact room
      have := ih rest next
      rw [show d :: dests = [d] ++ dests from rfl, List.count_append]
      omega

/-- An allocation for a visit that holds nothing (R168). -/
theorem State.Balanced.committed (balanced : s.Balanced)
    (others : ∀ w, w ≠ v → t.handle w = s.handle w ∧ t.legsAt w = s.legsAt w) (handle : t.handle v = s.handle v)
    (free : ∀ l ∈ s.legsAt v, l.dest = none) (given : s.placeLegs [] [] (s.legsAt v) = some dests)
    (legs : t.legsAt v = List.zipWith Leg.setDest (s.legsAt v) dests)
    (blocks : t.yard.blocks = (s.yard.committed (s.handle v) (s.legsAt v) dests).blocks)
    (bays : t.yard.bays = (s.yard.committed (s.handle v) (s.legsAt v) dests).bays) : t.Balanced := by
  have fits := (placeLegs_eq_some [] []).1 given
  have none_ := HoldNothing.of_dest free
  refine balanced.turn others (fun b _ => ?_) fun c p => ?_
  · rw [blocks, committed_reserved, none_.reservedTeu_eq, legs, reservedTeu_directed fits.directed free]
    rfl
  · rw [bays, committed_places, List.mem_append, mem_givenPlaces, legs, standsAt_directed fits.directed free, handle]
    refine or_congr_left ⟨fun mem => ⟨fun same => ?_, mem⟩, fun ⟨_, mem⟩ => mem⟩
    exact none_.not_standsAt (same ▸ ((balanced.places c p).1 mem).2)

theorem State.BaysKept.committed (kept : s.BaysKept) (balanced : s.Balanced) (free : ∀ l ∈ s.legsAt v, l.dest = none)
    (given : s.placeLegs [] [] (s.legsAt v) = some dests)
    (bays : t.yard.bays = (s.yard.committed (s.handle v) (s.legsAt v) dests).bays) : t.BaysKept := by
  have fits := (placeLegs_eq_some [] []).1 given
  have none_ := HoldNothing.of_dest free
  intro c
  obtain ⟨once, few⟩ := kept c
  rw [bays, committed_places]
  refine ⟨List.nodup_append.2 ⟨once, givenPlaces_nodup _ _ _, fun p mem q given same => ?_⟩, ?_⟩
  · subst same
    have slot : p.handle.slot = v := congrArg Handle.slot (mem_givenPlaces.1 given).1
    exact none_.not_standsAt (slot ▸ ((balanced.places c p).1 mem).2)
  · rw [List.length_append, length_givenPlaces]
    exact fits.count_le c (by simpa using few)

/-! ### A leg done (R177) -/

theorem reservedTeu_set_done {i : Nat} (at_ : legs[i]? = some l) (b : Fin 48) :
    reservedTeu b (legs.set i { l with done := true }) + l.reservedTeu b = reservedTeu b legs := by
  induction legs generalizing i with
  | nil => cases at_
  | cons k legs ih =>
    cases i with
    | zero =>
      cases at_
      rw [List.set_cons_zero, reservedTeu_cons, reservedTeu_cons]
      simp [Leg.reservedTeu, Leg.reserves]
      omega
    | succ i =>
      rw [List.set_cons_succ, reservedTeu_cons, reservedTeu_cons, ← ih at_]
      omega

theorem standsAt_set_done {k : Nat} (at_ : legs[k - 1]? = some l) (first : 1 ≤ k) :
    StandsAt (legs.set (k - 1) { l with done := true }) i c ↔ StandsAt legs i c ∧ i ≠ k := by
  unfold StandsAt
  by_cases same : i = k
  · subst same
    refine ⟨fun ⟨_, m, there, stands⟩ => ?_, fun is => absurd rfl is.2⟩
    rw [List.getElem?_set_self (List.getElem?_eq_some_iff.1 at_).1] at there
    cases there
    simp [Leg.standsIn] at stands
  · refine ⟨fun ⟨positive, m, there, stands⟩ => ?_, fun ⟨⟨positive, m, there, stands⟩, _⟩ => ?_⟩
    · rw [List.getElem?_set_ne (by omega)] at there
      exact ⟨⟨positive, m, there, stands⟩, same⟩
    · exact ⟨positive, m, by rw [List.getElem?_set_ne (by omega)]; exact there, stands⟩

end Sys2Proof.Machine
end

section
/-!
PROOFS. The yard (R150, R162, R166, R168, R172 to R180), act by act: O59.
-/

namespace Sys2Proof.Machine

variable {s t u : State} {n : Lane} {v w : Fin 64} {x y : Visit} {l : Leg} {h : Handle} {b : Fin 48} {c : Fin 4} {i : Nat}
variable {dests : List (Option Dest)}

/-! ### The yard and its visits, taken apart -/

/-- A visit's destinations follow its legs' dispositions, and a visit not placed yet has none (R150, R168). -/
structure Visit.Proper (x : Visit) : Prop where
  follows : ∀ l ∈ x.legs,
    (∀ b, l.dest = some (.block b) → l.disposition = .yard) ∧ (∀ b, l.dest = some (.bay b) → l.disposition = .inspect)
  unplaced : x.Unplaced → ∀ l ∈ x.legs, l.dest = none

/-- What `State.YardKept` says, but for the queue's length, which the lanes bound. -/
structure State.YardStands (s : State) : Prop where
  housed : ∀ v x, s.visit v = some x → x.state.isResident = true → (s.lane x.lane).resident = some v
  waits : ∀ n ∈ s.openWait, (s.lane n).resident = none
  proper : ∀ v x, s.visit v = some x → x.Proper
  balanced : s.Balanced
  bays : s.BaysKept
  once : s.yard.queue.Nodup
  names : ∀ h ∈ s.yard.queue, ∃ x, s.named h = some x ∧ x.state = .yardWait

/-- The lanes bound the yard-wait queue: its visits are resident, each on a lane of its own (R172). -/
theorem State.YardStands.length_queue (stands : s.YardStands) : s.yard.queue.length ≤ 12 := by
  have housed (h : Handle) (mem : h ∈ s.yard.queue) : ∃ n : Lane, (s.lane n).resident = some h.slot := by
    obtain ⟨x, named, state⟩ := stands.names h mem
    exact ⟨x.lane, stands.housed _ x (named_eq_some.1 named).2 (by rw [state]; rfl)⟩
  choose! lane resident using housed
  have apart : (s.yard.queue.map lane).Nodup := by
    refine stands.once.map_on fun h mem k mem' same => ?_
    have slots : h.slot = k.slot := Option.some.inj ((resident h mem).symm.trans (same ▸ resident k mem'))
    obtain ⟨x, named, -⟩ := stands.names h mem
    obtain ⟨z, named', -⟩ := stands.names k mem'
    rw [← (named_eq_some.1 named).1, ← (named_eq_some.1 named').1, slots]
  simpa using apart.length_le_card

theorem yardKept_iff : s.YardKept ↔ s.YardStands where
  mp kept := {
    housed := kept.housed
    waits := kept.waits
    proper := fun v x here => ⟨kept.follows v x here, kept.unplaced v x here⟩
    balanced := ⟨fun b => (kept.reserved b).trans (reserved_iff s b), fun c p => (kept.places c p).trans (places_iff s c p)⟩
    bays := kept.bays
    once := kept.queue.1
    names := kept.queue.2.2 }
  mpr stands := {
    housed := stands.housed
    waits := stands.waits
    follows := fun v x here => (stands.proper v x here).follows
    unplaced := fun v x here => (stands.proper v x here).unplaced
    reserved := fun b => (stands.balanced.reserved b).trans (reserved_iff s b).symm
    places := fun c p => (stands.balanced.places c p).trans (places_iff s c p).symm
    bays := stands.bays
    queue := ⟨stands.once, stands.length_queue, stands.names⟩ }

/-! ### One slot's visit replaced -/

section
variable (visits : t.visits = s.visits.set v { s.visits[v] with visit := some y })
include visits

theorem handle_of_put (w : Fin 64) : t.handle w = s.handle w := by
  rw [State.handle, State.handle, gen_set visits]

theorem legsAt_of_put : t.legsAt v = y.legs := legsAt_of_open (visit_set_same visits)

theorem legsAt_of_other (other : w ≠ v) : t.legsAt w = s.legsAt w := by
  rw [State.legsAt, visit_set_other visits other, State.legsAt]

theorem others_of_put (w : Fin 64) (other : w ≠ v) : t.handle w = s.handle w ∧ t.legsAt w = s.legsAt w :=
  ⟨handle_of_put visits w, legsAt_of_other visits other⟩

theorem named_of_put_other (other : h.slot ≠ v) : t.named h = s.named h := by
  rw [State.named, State.named, gen_set visits, visit_set_other visits other]

theorem proper_of_put (proper : ∀ v x, s.visit v = some x → x.Proper) (new : y.Proper) :
    ∀ v x, t.visit v = some x → x.Proper := by
  intro w z there
  rw [visit_of_set visits w] at there
  split at there
  · cases there
    exact new
  · exact proper w z there

/-- The queue names the visits that wait, when one visit is replaced. -/
theorem names_of_put (names : ∀ h ∈ s.yard.queue, ∃ x, s.named h = some x ∧ x.state = .yardWait)
    (queue : ∀ h ∈ t.yard.queue, h ∈ s.yard.queue ∧ h ≠ s.handle v ∨ h = s.handle v ∧ y.state = .yardWait) :
    ∀ h ∈ t.yard.queue, ∃ x, t.named h = some x ∧ x.state = .yardWait := by
  intro h mem
  rcases queue h mem with ⟨mem, other⟩ | ⟨rfl, waits⟩
  · obtain ⟨x, named, state⟩ := names h mem
    refine ⟨x, (named_of_put_other visits fun slot => other ?_).trans named, state⟩
    rw [← (named_eq_some.1 named).1, slot]
  · refine ⟨y, ?_, waits⟩
    rw [← handle_of_put visits v]
    exact named_handle (visit_set_same visits)

end

theorem State.YardStands.not_queued (stands : s.YardStands) (here : s.visit v = some x) (other : x.state ≠ .yardWait)
    (mem : h ∈ s.yard.queue) : h ≠ s.handle v := by
  rintro rfl
  obtain ⟨z, named, waits⟩ := stands.names _ mem
  cases (named_handle here).symm.trans named
  exact other waits

/-- A visit replaced in its lane. -/
theorem State.YardStands.put (stands : s.YardStands) (here : s.visit v = some x) (aside : Aside s t)
    (visits : t.visits = s.visits.set v { s.visits[v] with visit := some y }) (lane : y.lane = x.lane)
    (resident : y.state.isResident = true → x.state.isResident = true) (proper : y.Proper) (balanced : t.Balanced)
    (bays : t.BaysKept) (once : t.yard.queue.Nodup)
    (queue : ∀ h ∈ t.yard.queue, h ∈ s.yard.queue ∧ h ≠ s.handle v ∨ h = s.handle v ∧ y.state = .yardWait) :
    t.YardStands where
  housed w z there is := by
    rw [aside.residents]
    rw [visit_of_set visits w] at there
    split at there
    · next same =>
      cases there
      rw [same, lane]
      exact stands.housed v x here (resident is)
    · exact stands.housed w z there is
  waits m mem := by
    rw [aside.residents]
    exact stands.waits m (aside.openWait ▸ mem)
  proper := proper_of_put visits stands.proper proper
  balanced := balanced
  bays := bays
  once := once
  names := names_of_put visits stands.names queue

/-- The ledger under a visit whose legs hold what they held. -/
theorem State.Balanced.put (balanced : s.Balanced) (here : s.visit v = some x)
    (visits : t.visits = s.visits.set v { s.visits[v] with visit := some y }) (alike : HoldAlike x.legs y.legs)
    (blocks : t.yard.blocks = s.yard.blocks) (bays : t.yard.bays = s.yard.bays) : t.Balanced := by
  refine balanced.congr (handle_of_put visits) (fun w => ?_) (fun b => by rw [blocks]) fun c => by rw [bays]
  by_cases same : w = v
  · subst same
    rw [legsAt_of_open here, legsAt_of_put visits]
    exact alike
  · rw [legsAt_of_other visits same]
    exact .refl _

theorem State.BaysKept.of_bays (kept : s.BaysKept) (bays : t.yard.bays = s.yard.bays) : t.BaysKept :=
  kept.of_sublist fun c => by rw [bays]

theorem Visit.Proper.of_dest (none_ : ∀ l ∈ x.legs, l.dest = none) : x.Proper :=
  ⟨fun l mem => ⟨fun b is => (by cases (none_ l mem).symm.trans is), fun b is => by cases (none_ l mem).symm.trans is⟩,
    fun _ => none_⟩

/-! ### The acts on a visit in its lane -/

/-- A visit under review is changed (R91 to R93, R147 to R156). -/
theorem State.YardStands.review (stands : s.YardStands) (here : s.visit v = some x) (aside : Aside s t)
    (yard : t.yard = s.yard) (visits : t.visits = s.visits.set v { s.visits[v] with visit := some y })
    (lane : y.lane = x.lane) (legs : ∀ l ∈ y.legs, ∀ d, l.dest = some d → ∃ k ∈ x.legs, k.dest = some d)
    (early : x.Reviewed) : t.YardStands := by
  have free := (stands.proper v x here).unplaced early.unplaced
  have none_ : ∀ l ∈ y.legs, l.dest = none := fun l mem => by
    by_contra given
    obtain ⟨d, dest⟩ := Option.ne_none_iff_exists'.1 given
    obtain ⟨k, old, dest'⟩ := legs l mem d dest
    cases (free k old).symm.trans dest'
  refine stands.put here aside visits lane (fun _ => early.resident) (.of_dest none_) ?_
    (stands.bays.of_bays (by rw [yard])) (by rw [yard]; exact stands.once) fun h mem => ?_
  · exact stands.balanced.put here visits ((HoldNothing.of_dest free).alike (.of_dest none_)) (by rw [yard]) (by rw [yard])
  · rw [yard] at mem
    exact .inl ⟨mem, stands.not_queued here early.ne_yardWait mem⟩

/-- An admitted visit waits (R172). -/
theorem State.YardStands.wait (stands : s.YardStands) (here : s.visit v = some x) (aside : Aside s t)
    (yard : t.yard = { s.yard with queue := s.yard.queue ++ [s.handle v] })
    (visits : t.visits = s.visits.set v { s.visits[v] with visit := some y }) (lane : y.lane = x.lane)
    (legs : y.legs = x.legs) (state : y.state = .yardWait) (early : x.Reviewed) : t.YardStands := by
  have free := (stands.proper v x here).unplaced early.unplaced
  have apart {h : Handle} := stands.not_queued (h := h) here early.ne_yardWait
  refine stands.put here aside visits lane (fun _ => early.resident) (.of_dest (legs ▸ free)) ?_
    (stands.bays.of_bays (by rw [yard])) ?_ fun h mem => ?_
  · exact stands.balanced.put here visits (legs ▸ .refl _) (by rw [yard]) (by rw [yard])
  · rw [yard]
    exact List.nodup_append.2 ⟨stands.once, List.nodup_singleton _, fun h mem k new => List.mem_singleton.1 new ▸ apart mem⟩
  · rw [yard] at mem
    rcases List.mem_append.1 mem with mem | new
    · exact .inl ⟨mem, apart mem⟩
    · exact .inr ⟨List.mem_singleton.1 new, state⟩

theorem Directed.follows {legs : List Leg} (directed : Directed legs dests) (free : ∀ l ∈ legs, l.dest = none) :
    ∀ l ∈ List.zipWith Leg.setDest legs dests,
      (∀ b, l.dest = some (.block b) → l.disposition = .yard) ∧ (∀ b, l.dest = some (.bay b) → l.disposition = .inspect) := by
  induction directed with
  | nil => exact fun _ mem => absurd mem List.not_mem_nil
  | @cons l d legs dests head _ ih =>
    intro k mem
    rcases List.mem_cons.1 mem with rfl | mem
    · by_cases placed : l.IsPlaced
      · obtain ⟨e, rfl, block, bay⟩ := head.2 placed
        exact ⟨fun b is => block b (Option.some.inj is), fun b is => bay b (Option.some.inj is)⟩
      · rw [head.1 placed]
        have none_ := free l List.mem_cons_self
        exact ⟨fun b is => (by cases none_.symm.trans is), fun b is => by cases none_.symm.trans is⟩
    · exact ih (fun l mem => free l (List.mem_cons_of_mem _ mem)) k mem

/-- A visit is placed (R168), and leaves the queue where it stood in it (R174). -/
theorem State.YardStands.place (stands : s.YardStands) (here : s.visit v = some x) (aside : Aside s t)
    (given : s.placeLegs [] [] x.legs = some dests)
    (yard : t.yard = { s.yard.committed (s.handle v) x.legs dests with queue := s.yard.queue.filter (· != s.handle v) })
    (visits : t.visits = s.visits.set v { s.visits[v] with visit := some y }) (lane : y.lane = x.lane)
    (legs : y.legs = List.zipWith Leg.setDest x.legs dests) (state : y.state = .directing) (early : x.Unplaced)
    : t.YardStands := by
  have free := (stands.proper v x here).unplaced early
  have fits := (placeLegs_eq_some [] []).1 given
  have resident : x.state.isResident = true := by
    rcases early with is | is | is | is <;> rw [is] <;> rfl
  have old := legsAt_of_open here
  refine stands.put here aside visits lane (fun _ => resident) ⟨?_, fun is => ?_⟩ ?_ ?_ ?_ fun h mem => ?_
  · rw [legs]
    exact fits.directed.follows free
  · rcases is with is | is | is | is <;> cases state.symm.trans is
  · exact stands.balanced.committed (others_of_put visits) (handle_of_put visits v) (old ▸ free) (old ▸ given)
      (by rw [legsAt_of_put visits, old, legs]) (by rw [yard, old]) (by rw [yard, old])
  · exact stands.bays.committed stands.balanced (old ▸ free) (old ▸ given) (by rw [yard, old])
  · rw [yard]
    exact stands.once.filter _
  · rw [yard] at mem
    obtain ⟨mem, other⟩ := List.mem_filter.1 mem
    exact .inl ⟨mem, bne_iff_ne.1 other⟩

/-- A yard `u` after a leg is done (R177). -/
structure Converted (s u : State) (h : Handle) (i : Nat) (l : Leg) : Prop where
  reserved : ∀ b : Fin 48, u.yard.blocks[b].reserved = s.yard.blocks[b].reserved - l.reservedTeu b
  places : ∀ (c : Fin 4) (p : Place), p ∈ u.yard.bays[c].places
    ↔ p ∈ s.yard.bays[c].places ∧ ¬ (p = ⟨h, i⟩ ∧ l.standsIn c = true)
  sublist : ∀ c : Fin 4, u.yard.bays[c].places.Sublist s.yard.bays[c].places
  queue : u.yard.queue = s.yard.queue

theorem converted (s : State) (h : Handle) (i : Nat) (done : l.done = false)
    (follows : (∀ b, l.dest = some (.block b) → l.disposition = .yard)
      ∧ (∀ b, l.dest = some (.bay b) → l.disposition = .inspect)) : Converted s (s.convertLeg h i l) h i l := by
  have noBlock (b : Fin 48) (other : l.dest ≠ some (.block b)) : l.reservedTeu b = 0 := by
    rw [Leg.reservedTeu, Leg.reserves_of_dest other]
    rfl
  have noBay (c : Fin 4) (other : l.dest ≠ some (.bay c)) (p : Place) : ¬ (p = ⟨h, i⟩ ∧ l.standsIn c = true) := by
    rw [Leg.standsIn_of_dest other]
    exact fun is => Bool.false_ne_true is.2
  unfold State.convertLeg
  cases dest : l.dest with
  | none =>
    refine ⟨fun b => ?_, fun c p => ?_, fun c => .refl _, rfl⟩
    · rw [noBlock b (by rw [dest]; exact (Option.some_ne_none _).symm)]
      rfl
    · exact (and_iff_left (noBay c (by rw [dest]; exact (Option.some_ne_none _).symm) p)).symm
  | some d =>
    cases d with
    | block d =>
      have apart (c : Fin 4) := noBay c (by rw [dest]; exact fun is => by cases is)
      have yard := follows.1 d dest
      dsimp only
      split
      case isTrue drop =>
        refine ⟨fun b => ?_, fun c p => (and_iff_left (apart c p)).symm, fun c => .refl _, rfl⟩
        by_cases same : b = d
        · subst same
          simp [State.modBlock, Leg.reservedTeu, Leg.reserves, yard, drop, done, dest]
        · rw [noBlock b (by rw [dest]; exact fun is => same (by cases is; rfl))]
          simp [State.modBlock, Fin.val_inj, Ne.symm same]
      case isFalse pickup =>
        refine ⟨fun b => ?_, fun c p => (and_iff_left (apart c p)).symm, fun c => .refl _, rfl⟩
        have none_ : l.reservedTeu b = 0 := by simp [Leg.reservedTeu, Leg.reserves, pickup]
        rw [none_]
        by_cases same : b = d
        · subst same
          simp [State.modBlock]
        · simp [State.modBlock, Fin.val_inj, Ne.symm same]
    | bay d =>
      have inspect := follows.2 d dest
      refine ⟨fun b => ?_, fun c p => ?_, fun c => ?_, rfl⟩
      · rw [noBlock b (by rw [dest]; exact fun is => by cases is)]
        rfl
      · by_cases same : c = d
        · subst same
          simp [State.modBay, Leg.standsIn, inspect, done, dest]
        · have other := noBay c (by rw [dest]; exact fun is => same (by cases is; rfl)) p
          simp only [and_iff_left other]
          simp [State.modBay, Fin.val_inj, Ne.symm same]
      · by_cases same : c = d
        · subst same
          simp [State.modBay]
        · simp [State.modBay, Fin.val_inj, Ne.symm same]

/-- A leg is done (R177). -/
theorem State.YardStands.finish (stands : s.YardStands) (here : s.visit v = some x) (aside : Aside s t)
    (leg : x.leg i = some l) (can : l.canFinish x = true) (yard : t.yard = (s.convertLeg (s.handle v) i l).yard)
    (visits : t.visits = s.visits.set v { s.visits[v] with
      visit := some { x with legs := x.legs.set (i - 1) { l with done := true } } }) : t.YardStands := by
  obtain ⟨enRoute, -, -, open_⟩ := canFinish_iff.1 can
  obtain ⟨first, at_⟩ : 1 ≤ i ∧ x.legs[i - 1]? = some l := by
    unfold Visit.leg at leg
    split at leg
    · exact ⟨by omega, leg⟩
    · cases leg
  have proper := stands.proper v x here
  have conv : Converted s (s.convertLeg (s.handle v) i l) (s.handle v) i l := converted s _ i open_ (proper.follows l (List.mem_of_getElem? at_))
  have old := legsAt_of_open here
  refine stands.put here aside visits rfl id ⟨fun k mem => ?_, fun is => ?_⟩ ?_ ?_ ?_ fun h mem => ?_
  · rcases List.mem_or_eq_of_mem_set mem with mem | rfl
    · exact proper.follows k mem
    · exact proper.follows l (List.mem_of_getElem? at_)
  · rcases is with is | is | is | is <;> cases enRoute.symm.trans is
  · refine stands.balanced.turn (others_of_put visits) (fun b within => ?_) fun c p => ?_
    · have split := reservedTeu_set_done at_ b
      rw [yard, conv.reserved, legsAt_of_put visits]
      rw [old] at within ⊢
      dsimp only
      omega
    · have place := stands.balanced.mem_places v c p
      rw [old] at place
      rw [yard, conv.places, legsAt_of_put visits, handle_of_put visits, standsAt_set_done at_ first]
      constructor
      · rintro ⟨mem, apart⟩
        rcases place.1 mem with other | ⟨own, stand⟩
        · exact .inl other
        · refine .inr ⟨own, stand, fun number => apart ?_⟩
          subst number
          obtain ⟨-, k, at', stand⟩ := stand
          cases at_.symm.trans at'
          exact ⟨by rw [← own], stand⟩
      · rintro (other | ⟨own, stand, number⟩)
        · exact ⟨other.2, fun is => other.1 (by rw [is.1]; rfl)⟩
        · exact ⟨place.2 (.inr ⟨own, stand⟩), fun is => number (by rw [is.1])⟩
  · exact stands.bays.of_sublist fun c => by rw [yard]; exact conv.sublist c
  · rw [yard, conv.queue]
    exact stands.once
  · rw [yard, conv.queue] at mem
    exact .inl ⟨mem, stands.not_queued here (by rw [enRoute]; nofun) mem⟩

/-! ### The acts by which a visit comes and goes -/

/-- A visit that is no longer resident, and its lane without it. -/
theorem State.YardStands.leave (stands : s.YardStands) (resident : s.Resident n v x) (leaves : Leaves s t n)
    (visits : t.visits = s.visits.set v { s.visits[v] with visit := some y }) (gone : y.state.isResident = false)
    (proper : y.Proper) (balanced : t.Balanced) (bays : t.BaysKept) (queue : t.yard.queue.Sublist s.yard.queue)
    (left : s.handle v ∉ t.yard.queue) : t.YardStands where
  housed w z there is := by
    rw [visit_of_set visits w] at there
    split at there
    · cases there
      exact absurd (gone.symm.trans is) Bool.false_ne_true
    · next other =>
      have was := stands.housed w z there is
      rw [leaves.others, was]
      intro same
      exact other (Option.some.inj (was.symm.trans (same ▸ resident.1)))
  waits m mem := by
    by_cases same : m = n
    · rw [same, leaves.free]
    · rw [leaves.others m same]
      exact stands.waits m (leaves.openWait ▸ mem)
  proper := proper_of_put visits stands.proper proper
  balanced := balanced
  bays := bays
  once := stands.once.sublist queue
  names := names_of_put visits stands.names fun h mem => .inl ⟨queue.subset mem, fun is => left (is ▸ mem)⟩

theorem Visit.Proper.of_gone (follows : ∀ l ∈ y.legs,
    (∀ b, l.dest = some (.block b) → l.disposition = .yard) ∧ (∀ b, l.dest = some (.bay b) → l.disposition = .inspect))
    (gone : y.state.isResident = false) : y.Proper :=
  ⟨follows, fun is => by rcases is with is | is | is | is <;> rw [is] at gone <;> cases gone⟩

/-- A visit leaves its lane (R79). -/
theorem State.YardStands.depart (stands : s.YardStands) (resident : s.Resident n v x) (releasing : x.state = .releasing)
    (leaves : Leaves s t n) (yard : t.yard = s.yard)
    (visits : t.visits = s.visits.set v { s.visits[v] with visit := some y }) (legs : y.legs = x.legs)
    (gone : y.state.isResident = false) : t.YardStands := by
  have here := resident.2
  refine stands.leave resident leaves visits gone (.of_gone (legs ▸ (stands.proper v x here).follows) gone) ?_
    (stands.bays.of_bays (by rw [yard])) (by rw [yard]) fun mem => ?_
  · exact stands.balanced.put here visits (legs ▸ .refl _) (by rw [yard]) (by rw [yard])
  · rw [yard] at mem
    exact stands.not_queued here (by rw [releasing]; nofun) mem rfl

/-- A visit is rejected in its lane (R83, R85, R88). -/
theorem State.YardStands.reject {why : RejectReason} (stands : s.YardStands) (resident : s.Resident n v x)
    (leaves : Leaves s t n)
    (yard : t.yard = { s.yard.givenBack (s.handle v) x.legs with queue := s.yard.queue.filter (· != s.handle v) })
    (visits : t.visits = s.visits.set v { s.visits[v] with visit := some (x.rejected why) }) : t.YardStands := by
  have here := resident.2
  have old := legsAt_of_open here
  have places (c : Fin 4) : (s.yard.givenBack (s.handle v) x.legs).bays[c].places.Sublist s.yard.bays[c].places :=
    givenBack_sublist _ _ _ c
  obtain ⟨back, is⟩ : ∃ yard, yard = s.yard.givenBack (s.handle v) x.legs := ⟨_, rfl⟩
  rw [← is] at yard places
  refine stands.leave resident leaves visits rfl (.of_gone (fun l mem => ?_) rfl) ?_ ?_ ?_ fun mem => ?_
  · obtain ⟨k, was, rfl⟩ := List.mem_map.1 mem
    split
    · exact (stands.proper v x here).follows k was
    · exact ⟨fun _ is => (by cases is), fun _ is => by cases is⟩
  · refine stands.balanced.givenBack (others_of_put visits) ?_ (by rw [yard, old, ← is]) (by rw [yard, old, ← is])
    rw [legsAt_of_put visits]
    exact .rejected x why
  · exact stands.bays.of_sublist fun c => by rw [yard]; exact places c
  · rw [yard]
    exact List.filter_sublist
  · rw [yard] at mem
    simpa using (List.mem_filter.1 mem).2

/-- A lane opens a visit (R71, R72). -/
theorem State.YardStands.opens (stands : s.YardStands) (free : s.visit v = none)
    (spot : (s.lane n).resident = none ∨ n ∈ s.openWait) (yard : t.yard = s.yard)
    (openWait : t.openWait = s.openWait.filter (· != n))
    (visits : t.visits = s.visits.set v { s.visits[v] with visit := some y }) (lane : y.lane = n) (legs : y.legs = [])
    (resident : (t.lane n).resident = some v) (others : ∀ m, m ≠ n → (t.lane m).resident = (s.lane m).resident) :
    t.YardStands where
  housed w z there is := by
    rw [visit_of_set visits w] at there
    split at there
    · next same =>
      cases there
      rw [same, lane, resident]
    · have was := stands.housed w z there is
      rw [others, was]
      intro same
      rw [same, spot.elim id (stands.waits n)] at was
      cases was
  waits m mem := by
    rw [openWait] at mem
    obtain ⟨mem, other⟩ := List.mem_filter.1 mem
    rw [others m (bne_iff_ne.1 other)]
    exact stands.waits m mem
  proper := proper_of_put visits stands.proper (.of_dest fun l mem => by rw [legs] at mem; cases mem)
  balanced := by
    refine stands.balanced.congr (handle_of_put visits) (fun w => ?_) (fun b => by rw [yard]) fun c => by rw [yard]
    by_cases same : w = v
    · subst same
      rw [legsAt_of_free free, legsAt_of_put visits, legs]
      exact .refl _
    · rw [legsAt_of_other visits same]
      exact .refl _
  bays := stands.bays.of_bays (by rw [yard])
  once := yard ▸ stands.once
  names := names_of_put visits stands.names fun h mem => .inl (by
    rw [yard] at mem
    refine ⟨mem, ?_⟩
    rintro rfl
    obtain ⟨z, named, -⟩ := stands.names _ mem
    cases free.symm.trans (named_eq_some.1 named).2)

/-- A visit that has left is closed (R87). -/
theorem State.YardStands.close (stands : s.YardStands) (here : s.visit v = some x) (gone : x.state.isResident = false)
    (aside : Aside s t) (yard : t.yard = s.yard.givenBack (s.handle v) x.legs)
    (visits : t.visits = s.visits.set v ⟨s.visits[v].gen + 1, none⟩) : t.YardStands := by
  have old := legsAt_of_open here
  have apart {w : Fin 64} (other : w ≠ v) : t.visits[w] = s.visits[w] := by
    simp [visits, Fin.val_inj, Ne.symm other]
  have others (w : Fin 64) (other : w ≠ v) : t.handle w = s.handle w ∧ t.legsAt w = s.legsAt w := by
    constructor
    · rw [State.handle, apart other, State.handle]
    · rw [State.legsAt, visit_set_other visits other, State.legsAt]
  have freed : t.visit v = none := visit_set_same visits
  refine ⟨fun w z there is => ?_, fun m mem => ?_, fun w z there => ?_, ?_, ?_, ?_, fun h mem => ?_⟩
  · rw [aside.residents]
    rw [visit_of_set visits w] at there
    split at there
    · cases there
    · exact stands.housed w z there is
  · rw [aside.residents]
    exact stands.waits m (aside.openWait ▸ mem)
  · rw [visit_of_set visits w] at there
    split at there
    · cases there
    · exact stands.proper w z there
  · refine stands.balanced.givenBack others ?_ (by rw [yard, old]) (by rw [yard, old])
    rw [legsAt_of_free freed]
    exact fun l mem => absurd mem List.not_mem_nil
  · exact stands.bays.of_sublist fun c => by rw [yard]; exact givenBack_sublist _ _ _ c
  · rw [yard, givenBack_queue]
    exact stands.once
  · rw [yard, givenBack_queue] at mem
    obtain ⟨z, named, state⟩ := stands.names h mem
    obtain ⟨handle, there⟩ := named_eq_some.1 named
    refine ⟨z, ?_, state⟩
    have other : h.slot ≠ v := by
      intro same
      rw [same] at there
      cases here.symm.trans there
      rw [state] at gone
      cases gone
    rw [State.named, apart other, visit_set_other visits other]
    exact named

/-! ### Calm changes -/

theorem Visit.Calm.proper (calm : x.Calm y) (proper : x.Proper) : y.Proper := by
  have same (l : Leg) (mem : l ∈ y.legs) : ∃ k ∈ x.legs, k.unjudged = l.unjudged := by
    have mem := List.mem_map_of_mem (f := Leg.unjudged) mem
    rw [calm.legs] at mem
    exact List.mem_map.1 mem
  refine ⟨fun l mem => ?_, fun unplaced l mem => ?_⟩ <;> obtain ⟨k, old, is⟩ := same l mem
  · have dest : k.dest = l.dest := show k.unjudged.dest = l.unjudged.dest by rw [is]
    have disposition : k.disposition = l.disposition :=
      show k.unjudged.disposition = l.unjudged.disposition by rw [is]
    rw [← dest, ← disposition]
    exact proper.follows k old
  · have dest : k.dest = l.dest := show k.unjudged.dest = l.unjudged.dest by rw [is]
    rw [← dest]
    exact proper.unplaced (calm.unplaced unplaced) k old

theorem State.YardStands.calm (stands : s.YardStands) (calm : Calm s t) : t.YardStands := by
  have was {w : Fin 64} {z : Visit} (there : t.visit w = some z) : ∃ x, s.visit w = some x ∧ x.Calm z := by
    cases here : s.visit w with
    | none =>
      rw [calm.closed w here] at there
      cases there
    | some x =>
      obtain ⟨z', there', is, -⟩ := calm.visits w x here
      cases there.symm.trans there'
      exact ⟨x, rfl, is⟩
  refine ⟨fun w z there is => ?_, fun m mem => ?_, fun w z there => ?_, ?_, ?_, ?_, fun h mem => ?_⟩
  · obtain ⟨x, here, same⟩ := was there
    have resident := stands.housed w x here (same.resident ▸ is)
    rw [same.lane]
    rcases calm.residents x.lane with stays | ⟨-, closed⟩
    · rw [stays, resident]
    · cases here.symm.trans (closed w resident)
  · rcases calm.waits m mem with mem | none_
    · rcases calm.residents m with stays | ⟨none_, -⟩
      · rw [stays, stands.waits m mem]
      · exact none_
    · exact none_
  · obtain ⟨x, here, same⟩ := was there
    exact same.proper (stands.proper w x here)
  · refine stands.balanced.congr calm.gens (fun w => ?_) calm.reserved calm.places
    cases here : s.visit w with
    | none =>
      rw [legsAt_of_free here, legsAt_of_free (calm.closed w here)]
      exact .refl _
    | some x =>
      obtain ⟨z, there, same, -⟩ := calm.visits w x here
      rw [legsAt_of_open here, legsAt_of_open there]
      exact .of_unjudged same.legs
  · exact stands.bays.of_sublist fun c => by rw [calm.places c]
  · exact stands.once.sublist calm.queue
  · obtain ⟨x, named, state⟩ := stands.names h (calm.queue.subset mem)
    obtain ⟨handle, here⟩ := named_eq_some.1 named
    obtain ⟨z, there, -, left⟩ := calm.visits h.slot x here
    refine ⟨z, named_eq_some.2 ⟨(calm.gens _).trans handle, there⟩, ?_⟩
    by_contra moved
    exact left state moved (handle.symm ▸ mem)

/-! ### The retry (R173, R174) -/

theorem report_yard (s : State) (n : Lane) : (s.report n).yard = s.yard := by
  unfold State.report
  split
  · split <;> rfl
  · rfl

/-- One visit of a retry: it is placed and leaves the queue, or nothing changes. -/
theorem State.YardStands.retryOne (stands : s.YardStands) (mem : h ∈ s.yard.queue) : (s.retryOne h).YardStands
    ∧ ∀ k ∈ s.yard.queue, k ≠ h → k ∈ (s.retryOne h).yard.queue := by
  obtain ⟨x, named, state⟩ := stands.names h mem
  obtain ⟨handle, here⟩ := named_eq_some.1 named
  cases placed : s.place h.slot with
  | none =>
    rw [retryOne_of_unplaced named placed]
    exact ⟨stands, fun k mem _ => mem⟩
  | some t =>
    rw [retryOne_of_placed named placed]
    obtain ⟨x', dests, here', given, rfl⟩ := exists_of_place placed
    cases here.symm.trans here'
    obtain ⟨yard, committed⟩ : ∃ yard, yard = s.yard.committed (s.handle h.slot) x.legs dests := ⟨_, rfl⟩
    have queue : yard.queue = s.yard.queue := by rw [committed, committed_queue]
    rw [← committed]
    let left : State := State.leaveQueue { s with
      visits := s.visits.set h.slot { s.visits[h.slot] with visit := some { x with legs := List.zipWith Leg.setDest x.legs dests } }
      yard := yard } h
    have there : left.visit h.slot = some { x with legs := List.zipWith Leg.setDest x.legs dests } :=
      visit_set_same (s := left) (v := h.slot)
        (y := { s.visits[h.slot] with visit := some { x with legs := List.zipWith Leg.setDest x.legs dests } }) rfl
    have placed : (left.directed x.lane h.slot { x with legs := List.zipWith Leg.setDest x.legs dests }).YardStands := by
      refine stands.place here (.of_lane rfl rfl rfl rfl rfl) given ?_ (visits_set_set _ _) rfl rfl rfl (.inr (.inr (.inr state)))
      rw [← committed, ← queue, handle]
      rfl
    have directed := enterDirecting_eq there x.lane
    have stays (k : Handle) (mem : k ∈ s.yard.queue) (other : k ≠ h) :
        k ∈ (left.directed x.lane h.slot { x with legs := List.zipWith Leg.setDest x.legs dests }).yard.queue :=
      List.mem_filter.2 ⟨queue.symm ▸ mem, bne_iff_ne.2 other⟩
    change (left.enterDirecting x.lane h.slot).YardStands ∧ ∀ k ∈ s.yard.queue, k ≠ h →
      k ∈ (left.enterDirecting x.lane h.slot).yard.queue
    rw [directed]
    split
    · exact ⟨placed.calm (.report _ _), fun k mem other => by rw [report_yard]; exact stays k mem other⟩
    · exact ⟨placed, stays⟩

theorem State.YardStands.retry (stands : s.YardStands) : s.retry.YardStands := by
  have walk (queue : List Handle) (once : queue.Nodup) (u : State) (stands : u.YardStands)
      (mem : ∀ h ∈ queue, h ∈ u.yard.queue) : (queue.foldl State.retryOne u).YardStands := by
    induction queue generalizing u with
    | nil => exact stands
    | cons h queue ih =>
      obtain ⟨apart, once⟩ := List.nodup_cons.1 once
      obtain ⟨next, stays⟩ := stands.retryOne (mem h List.mem_cons_self)
      refine ih once _ next fun k queued => stays k (mem k (List.mem_cons_of_mem h queued)) ?_
      rintro rfl
      exact apart queued
  exact walk _ stands.once s stands fun _ mem => mem

theorem Act.yard (act : Act True s t) (stands : s.YardStands) : t.YardStands := by
  cases act with
  | calm calm => exact stands.calm calm
  | book move =>
    rw [move.onBook]
    exact ⟨stands.housed, stands.waits, stands.proper, ⟨stands.balanced.reserved, stands.balanced.places⟩, stands.bays,
      stands.once, stands.names⟩
  | review v x y here aside yard visits lane was stays legs early =>
    exact stands.review here aside yard visits lane legs (early trivial)
  | wait v x y here aside yard visits lane legs state early => exact stands.wait here aside yard visits lane legs state early
  | place v x y dests here aside given yard visits lane legs state early =>
    refine stands.place here aside given ?_ visits lane legs state early.unplaced
    have whole : s.yard.queue.filter (· != s.handle v) = s.yard.queue :=
      List.filter_eq_self.2 fun h mem => bne_iff_ne.2 (stands.not_queued here early.ne_yardWait mem)
    rw [yard, whole, ← committed_queue s.yard (s.handle v) x.legs dests]
  | retry is => exact is ▸ stands.retry
  | depart n v x y resident releasing leaves yard visits lane legs gone =>
    exact stands.depart resident releasing leaves yard visits legs gone
  | reject n v x why resident leaves yard visits => exact stands.reject resident leaves yard visits
  | opens n v y free spot book ring yard openWait visits lane legs state resident others =>
    exact stands.opens free spot yard openWait visits lane legs resident others
  | close v x here gone aside yard visits => exact stands.close here gone aside yard visits
  | finish v x i l here aside leg can yard visits => exact stands.finish here aside leg can yard visits
  | reset book ring lanes openWait visits yard =>
    obtain ⟨-, -, -, -, -, -, -, kept, -⟩ := resetHasTheInvariants
    exact (yardKept_iff.1 kept).calm (.of_eq book ring lanes openWait visits yard)

end Sys2Proof.Machine

open Sys2Proof Sys2Proof.Machine in
/-- Settles O59, act by act. -/
theorem stepKeepsTheYard : Obligations.StepKeepsTheYard := by
  intro s t run _ kept early
  have acts : Acts True s t := step_acts run fun _ => early
  clear run
  rw [yardKept_iff] at kept ⊢
  induction acts with
  | refl => exact kept
  | tail _ act kept => exact act.yard kept
end

section
/-!
PROOFS. The mirrors of the Sign Units keep the size of their class (R184, R190), function by function of the model.
-/

namespace Sys2Proof.Machine

variable {s t u : State} {n : Lane} {v : Fin 64} {x y : Visit}

/-! ### Mirrors of the size of their class -/

/-- A mirror has one entry for each line of its class (R190). -/
def Sign.Framed (g : Sign) : Prop := g.mirror.length = g.cls.count

/-- A change after which every mirror that had the size of its class has it still. -/
def Frames (s t : State) : Prop := ∀ n, (s.sign n).Framed → (t.sign n).Framed

theorem Frames.refl (s : State) : Frames s s := fun _ => id

theorem Frames.trans (h : Frames s t) (g : Frames t u) : Frames s u := fun n => g n ∘ h n

theorem Frames.of_signs (h : t.signs = s.signs) : Frames s t := fun n framed => by
  rwa [State.sign, h]

theorem Frames.foldl {α : Type} {f : State → α → State} (h : ∀ s a, Frames s (f s a)) (l : List α) (s : State) :
    Frames s (l.foldl f s) := by
  induction l generalizing s with
  | nil => exact .refl s
  | cons a l ih => exact (h s a).trans (ih _)

theorem Frames.forLanes {f : Lane → State → State} (h : ∀ n s, Frames s (f n s)) (s : State) :
    Frames s (Machine.forLanes f s) := Frames.foldl (fun s n => h n s) _ s

theorem Frames.ite {p : Prop} [Decidable p] (ht : Frames s t) (hu : Frames s u) : Frames s (if p then t else u) := by
  split <;> assumption

theorem Frames.modSign {f : Sign → Sign} (s : State) (n : Lane) (framed : (s.sign n).Framed → (f (s.sign n)).Framed) :
    Frames s (s.modSign n f) := by
  intro m was
  by_cases same : m = n
  · subst same
    rw [modSign_sign_same]
    exact framed was
  · rw [modSign_sign_other _ _ same]
    exact was

theorem framed_unknown (g : Sign) : ({ g with mirror := unknownMirror g.cls } : Sign).Framed := by
  rw [Sign.Framed, unknownMirror, List.length_replicate, SignClass.lines_eq]

section
variable (s : State)

/-! ### The book, the lanes and the visits -/

theorem Frames.bookMove (h : BookMove s t) : Frames s t := by
  rw [h.onBook]
  exact .of_signs rfl

theorem Frames.reverted (h : Handle) (legs : List Leg) : Frames s (s.reverted h legs) :=
  .foldl (fun s l => .bookMove s (.revert l h)) legs s

theorem Frames.admitLegs (h : Handle) (legs : List Leg) : Frames s (s.admitLegs h legs) :=
  .foldl (fun s l => .bookMove s (.admission l h)) legs s

theorem Frames.modVisit (v : Fin 64) (f : Visit → Visit) : Frames s (s.modVisit v f) := .of_signs rfl

theorem Frames.modLane (n : Lane) (f : LaneUnit → LaneUnit) : Frames s (s.modLane n f) := .of_signs rfl

theorem Frames.modGrade (n : Lane) (f : GradeLane → GradeLane) : Frames s (s.modGrade n f) := .of_signs rfl

theorem Frames.loadDwell (n : Lane) (form : TimerForm) (k : LimitKind) : Frames s (s.loadDwell n form k) := .of_signs rfl

theorem Frames.stopDwell (n : Lane) : Frames s (s.stopDwell n) := .of_signs rfl

theorem Frames.takeExpiry (n : Lane) : Frames s (s.takeExpiry n) := .of_signs rfl

theorem Frames.startReleasing (n : Lane) : Frames s (s.startReleasing n) := .of_signs rfl

theorem Frames.join (c : Change) : Frames s (s.join c) := .of_signs rfl

theorem Frames.leaveQueue (h : Handle) : Frames s (s.leaveQueue h) := .of_signs rfl

theorem Frames.withdraw (n : Lane) : Frames s (s.withdraw n) := .of_signs rfl

theorem Frames.enterHeld (n : Lane) (v : Fin 64) : Frames s (s.enterHeld n v) := .of_signs rfl

theorem Frames.closeGrading (n : Lane) (v : Fin 64) : Frames s (s.closeGrading n v) := .of_signs rfl

theorem Frames.takeEntry (n : Lane) : Frames s (s.takeEntry n) := by
  unfold State.takeEntry
  split
  · split
    · split <;> exact .of_signs rfl
    all_goals exact .of_signs rfl
  · exact .refl s

theorem Frames.enterReleasing (n : Lane) (v : Fin 64) : Frames s (s.enterReleasing n v) :=
  ((Frames.modVisit s v _).trans (.startReleasing _ n)).trans (.modSign _ n id)

theorem Frames.dropLegs (v : Fin 64) (which : Leg → Bool) : Frames s (s.dropLegs v which) := by
  unfold State.dropLegs
  split
  · exact .refl s
  · exact (Frames.reverted s _ _).trans (.modVisit _ v _)

theorem Frames.turnAway (n : Lane) (v : Fin 64) (src : DecisionSource) (out : ReleaseOutcome) :
    Frames s (s.turnAway n v src out) :=
  ((Frames.dropLegs s v _).trans (.modVisit _ v _)).trans (.enterReleasing _ n v)

theorem Frames.afterDeparture (n : Lane) : Frames s (s.afterDeparture n) := by
  unfold State.afterDeparture
  exact ((Frames.modLane s n _).trans (.modSign _ n id)).trans (.ite (.of_signs rfl) (.ite (.takeEntry _ n) (.refl _)))

theorem Frames.departVisit (n : Lane) (v : Fin 64) : Frames s (s.departVisit n v) := by
  unfold State.departVisit
  exact ((Frames.modVisit s v _).trans (.join _ _)).trans (.afterDeparture _ n)

theorem Frames.takeExit (n : Lane) (level : Bool) (departure : Frames s t) : Frames s (s.takeExit n level t) :=
  .ite (.modLane s n _) (.ite departure (.refl s))

theorem Frames.takeLoop (n : Lane) (p : Loop) (level : Bool) : Frames s (s.takeLoop n p level) := by
  unfold State.takeLoop
  split
  · cases p with
    | entry => exact .ite (.refl s) (.modLane s n _)
    | stop => exact .ite (.of_signs rfl) (.refl s)
    | exit => exact .ite (.takeExit s n level (.departVisit s n _)) (.refl s)
  · cases p with
    | entry => exact .ite (.takeEntry s n) (.of_signs rfl)
    | stop => exact .refl s
    | exit => exact .ite (.takeExit s n level (.afterDeparture s n)) (.refl s)

/-! ### The Sign Units (R191 to R199) -/

theorem Frames.startJobOn (refresh : Bool) (n : Lane) : Frames s (startJobOn refresh n s) := by
  unfold Machine.startJobOn
  split
  · split
    · exact .modSign s n id
    · exact .refl s
  · exact .refl s

theorem Frames.startJobs : Frames s s.startJobs := .forLanes (fun n s => .startJobOn s false n) s

theorem Frames.report (n : Lane) : Frames s (s.report n) := by
  unfold State.report
  split
  · exact .ite (.refl s) ((Frames.modSign s n id).trans (.enterReleasing _ n _))
  · exact .refl s

theorem Frames.enterDirecting (n : Lane) (v : Fin 64) : Frames s (s.enterDirecting n v) := by
  unfold State.enterDirecting
  exact (((Frames.modVisit s v _).trans (.stopDwell _ n)).trans (.modSign _ n (f := fun g =>
    { g with reportMark := false, printDue := g.cls == .ticket }) id)).trans (.ite (.report _ n) (.refl _))

theorem Frames.completeJob (n : Lane) (j : Job) : Frames s (s.completeJob n j) := by
  unfold State.completeJob
  exact ((Frames.modSign s n id).trans (.ite (.report _ n) (.refl _))).trans (.startJobOn _ false n)

theorem Frames.acceptLine (n : Lane) (j : Job) : Frames s (s.acceptLine n j) := by
  unfold State.acceptLine
  refine (Frames.modSign s n fun framed => ?_).trans (.ite (.modSign _ n id) (.completeJob _ n j))
  rw [Sign.Framed, List.length_set]
  exact framed

theorem Frames.markSignFault (h : Option Handle) : Frames s (s.markSignFault h) := by
  unfold State.markSignFault
  split
  · exact .refl s
  · exact .ite (.of_signs rfl) (.refl s)

theorem Frames.reportLoss (n : Lane) (j : Job) : Frames s (s.reportLoss n j) := by
  unfold State.reportLoss
  split
  · exact .ite (.report s n) (.refl s)
  · exact .refl s

theorem Frames.failJob (n : Lane) (j : Job) : Frames s (s.failJob n j) := by
  rw [failJob_eq, State.jobLost, ← jobFailed_eq]
  exact ((Frames.modSign s n fun _ => framed_unknown (s.sign n)).trans (.markSignFault _ _)).trans (.reportLoss _ n j)

theorem Frames.takeReply (n : Lane) (r : Reply) : Frames s (s.takeReply n r) := by
  unfold State.takeReply
  split
  · exact .ite (.ite (.acceptLine s n _) (.failJob s n _)) (.refl s)
  all_goals exact .refl s

/-! ### The yard (R168, R172 to R178) -/

theorem Frames.place (placed : s.place v = some t) : Frames s t := by
  obtain ⟨x, dests, -, -, rfl⟩ := exists_of_place placed
  exact .of_signs rfl

theorem Frames.allocate (n : Lane) (v : Fin 64) : Frames s (s.allocate n v) := by
  unfold State.allocate
  split
  · next t placed => exact (Frames.place s placed).trans (.enterDirecting _ n v)
  · exact .of_signs rfl

theorem Frames.retryOne (h : Handle) : Frames s (s.retryOne h) := by
  unfold State.retryOne
  split
  · exact .refl s
  · split
    · next t placed => exact (Frames.place s placed).trans ((Frames.leaveQueue t h).trans (.enterDirecting _ _ _))
    · exact .refl s

theorem Frames.retryIf (b : Bool) : Frames s (s.retryIf b) := .ite (.foldl (fun s h => .retryOne s h) _ s) (.refl s)

theorem Frames.retry : Frames s s.retry := .foldl (fun s h => .retryOne s h) _ s

theorem Frames.rejectVisit (v : Fin 64) (why : RejectReason) : Frames s (s.rejectVisit v why) := by
  cases here : s.visit v with
  | none =>
    rw [rejectVisit_of_closed s here]
    exact .refl s
  | some x =>
    rw [rejectVisit_eq here]
    exact .of_signs rfl

theorem Frames.abortVisit (n : Lane) (v : Fin 64) : Frames s (s.abortVisit n v) := by
  unfold State.abortVisit
  exact (((((Frames.rejectVisit s v .aborted).trans (.withdraw _ n)).trans (.modGrade _ n _)).trans (.modLane _ n _)).trans
    (.startReleasing _ n)).trans (.modSign _ n id)

theorem Frames.resetLane (n : Lane) (why : RejectReason) : Frames s (s.resetLane n why) := by
  have rejected : Frames s (match (s.lane n).resident with
      | some v => s.rejectVisit v why
      | none => s) := by
    split
    · exact .rejectVisit s _ why
    · exact .refl s
  unfold State.resetLane
  exact (((rejected.trans (.withdraw _ n)).trans (.modGrade _ n _)).trans (.modLane _ n _)).trans
    (.modSign _ n fun _ => framed_unknown _)

theorem Frames.closeVisit (v : Fin 64) (x : Visit) : Frames s (s.closeVisit v x) := by
  have released : Frames s (x.legs.foldl (fun t l => t.releaseBooking l (s.handle v)) (s.releaseLegs (s.handle v) x.legs)) := by
    rw [releaseLegs_eq]
    generalize s.yard.givenBack (s.handle v) x.legs = yard
    exact Frames.trans (t := { s with yard := yard }) (.of_signs rfl) (.foldl (fun s l => .bookMove s (.release l _)) _ _)
  unfold State.closeVisit
  dsimp only
  generalize x.legs.foldl (fun t l => t.releaseBooking l (s.handle v)) (s.releaseLegs (s.handle v) x.legs) = t at released ⊢
  refine released.trans (.of_signs ?_)
  unfold State.handOn
  split <;> rfl

theorem Frames.decide (n : Lane) (v : Fin 64) (x : Visit) (d : Decision) : Frames s (s.decide n v x d) := by
  have chosen (h : Handle) (cs : List Choice) : Frames s
      ((x.legs.zip cs).foldl (fun t p => t.chooseBooking h p.1 p.2) (s.stopDwell n)) :=
    (Frames.stopDwell s n).trans (.foldl (fun u (p : Leg × Choice) => .ite (.bookMove u (.admission p.1 h))
      (.bookMove u (.revert p.1 h))) _ _)
  cases d with
  | turnAway => exact .turnAway s n v _ _
  | list cs => exact .ite (((chosen _ cs).trans (.modVisit _ v _)).trans (.allocate _ n v)) (.turnAway s n v _ _)

/-! ### Checking, grading and identification -/

theorem Frames.autoAdmit (n : Lane) (v : Fin 64) : Frames s (s.autoAdmit n v) := by
  unfold State.autoAdmit
  split
  · exact .refl s
  · exact ((Frames.admitLegs s _ _).trans (.modVisit _ v _)).trans (.allocate _ n v)

theorem Frames.endOfChecking (n : Lane) (v : Fin 64) : Frames s (s.endOfChecking n v) := by
  unfold State.endOfChecking
  split
  · exact .refl s
  · exact (Frames.modVisit s v _).trans (.ite (.autoAdmit _ n v) (.enterHeld _ n v))

theorem Frames.testChecking (n : Lane) : Frames s (s.testChecking n) := by
  unfold State.testChecking
  split
  · exact .ite (.endOfChecking s n _) (.refl s)
  · exact .refl s

theorem Frames.settleNotice (n : Lane) (v : Fin 64) : Frames s (s.settleNotice n v) := by
  unfold State.settleNotice
  split
  · exact .refl s
  · exact .ite (.ite (.of_signs rfl) (.of_signs rfl)) (.refl s)

theorem Frames.earlyTest (n : Lane) (v : Fin 64) : Frames s (s.earlyTest n v) := by
  unfold State.earlyTest
  split
  · exact .refl s
  · exact .ite (.of_signs rfl) (.refl s)

theorem Frames.earlyTestOf (h : Handle) : Frames s (s.earlyTestOf h) := by
  unfold State.earlyTestOf
  split
  · exact .ite ((Frames.closeGrading s _ _).trans (.testChecking _ _)) (.refl s)
  · exact .refl s

theorem Frames.applyScan (n : Lane) (c : Scan) : Frames s (s.applyScan n c) := by
  unfold State.applyScan
  split
  · exact .refl s
  · exact .ite (.ite (.of_signs rfl) (.of_signs rfl)) (.refl s)

theorem Frames.closeAllClosing (n : Lane) : Frames s (s.closeAllClosing n) := by
  refine .foldl (fun s v => ?_) _ s
  unfold closeClosing
  split
  · exact .refl s
  · exact .ite (.of_signs rfl) (.refl s)

theorem gradingTake_signs : s.gradingTake.signs = s.signs := by
  unfold State.gradingTake
  split
  · rfl
  · split
    · rfl
    · split <;> rfl

theorem grant_signs : s.grant.signs = s.signs := by
  unfold State.grant
  split
  · rfl
  · split
    · unfold State.grantTo
      split
      · dsimp only
        split <;> rfl
      · rfl
    · rfl

theorem Frames.formLegs (h : Handle) (a : Nat) (refs : List Text) : Frames s (s.formLegs h a refs).1 := by
  induction refs generalizing s with
  | nil => exact .refl s
  | cons ref rest ih => exact Frames.trans (.bookMove s (.form h a ref)) (ih _)

theorem Frames.identify (op : Ident) : Frames s (s.identify op) := by
  have told (u : State) (n : Lane) (v : Fin 64) : Frames u (u.identificationTold n v) := by
    unfold State.identificationTold
    split
    · exact .refl u
    · refine .ite (.turnAway u n v _ _) (.ite (Frames.trans (.ite (.stopDwell u n) (.refl u)) (.testChecking _ n)) (.refl u))
  unfold State.identify
  split
  · exact .refl s
  · refine .ite ?_ (.refl s)
    exact (((Frames.formLegs s _ _ _).trans (.modVisit _ _ _)).trans (.earlyTest _ _ _)).trans (told _ _ _)

/-! ### The expiries of the dwell timer -/

theorem Frames.approachExpires (n : Lane) (v : Fin 64) : Frames s (s.approachExpires n v) := by
  unfold State.approachExpires
  exact (((Frames.takeExpiry s n).trans (.modVisit _ v _)).trans (.enterHeld _ n v)).trans (.settleNotice _ n v)

theorem Frames.settleExpires (n : Lane) (v : Fin 64) (x : Visit) : Frames s (s.settleExpires n v x) := by
  have noticed : Frames s (((s.takeExpiry n).modVisit v fun y => { y with settleExpired := true }).settleNotice n v) :=
    ((Frames.takeExpiry s n).trans (.modVisit _ v _)).trans (.settleNotice _ n v)
  unfold State.settleExpires
  dsimp only
  exact (noticed.trans (.ite (.refl _) (.loadDwell _ n _ _))).trans (.testChecking _ n)

theorem Frames.cardExpires (n : Lane) (v : Fin 64) : Frames s (s.cardExpires n v) := by
  unfold State.cardExpires
  exact ((Frames.takeExpiry s n).trans (.modVisit _ v _)).trans (.testChecking _ n)

theorem Frames.yardWaitExpires (n : Lane) (v : Fin 64) : Frames s (s.yardWaitExpires n v) :=
  (((Frames.takeExpiry s n).trans (.leaveQueue _ _)).trans (.modVisit _ v _)).trans (.enterHeld _ n v)

theorem Frames.holdExpires (n : Lane) (v : Fin 64) (x : Visit) : Frames s (s.holdExpires n v x) :=
  (Frames.takeExpiry s n).trans (.ite (.modVisit _ v _) (.turnAway _ n v _ _))

end

end Sys2Proof.Machine
end

section
/-!
PROOFS. No idle Sign Unit with a job due (R191): a change that no sign shows, and the start of the due jobs.
-/

namespace Sys2Proof.Machine

variable {s t u : State} {n : Lane} {v : Fin 64} {x y : Visit} {T : Prop}

/-! ### Changes that no sign shows (R185 to R187) -/

/-- What a sign shows of a visit. -/
def Visit.face (x : Visit) : VisitState × List Leg × Option ReadEntry × Option ReleaseOutcome :=
  (x.state, x.legs, x.plate, x.outcome)

/-- A sign with the same settings, mirror and print due mark, idle where the other is. -/
structure Sign.Alike (g h : Sign) : Prop where
  cls : h.cls = g.cls
  mode : h.mode = g.mode
  desk : h.desk = g.desk
  mirror : h.mirror = g.mirror
  printDue : h.printDue = g.printDue
  idle : h.job = .idle → g.job = .idle

/-- A change that no sign shows, and that starts and ends no job. -/
structure Still (s t : State) : Prop where
  signs : ∀ n, (s.sign n).Alike (t.sign n)
  residents : ∀ n, (t.lane n).resident = (s.lane n).resident
  states : ∀ n, t.laneState n = s.laneState n
  modes : ∀ n, (t.lane n).mode = (s.lane n).mode
  faces : ∀ v, (t.visit v).map Visit.face = (s.visit v).map Visit.face
  words : ∀ d, destWords t d = destWords s d

theorem Sign.Alike.refl (g : Sign) : g.Alike g := ⟨rfl, rfl, rfl, rfl, rfl, id⟩

theorem Sign.Alike.trans {g h k : Sign} (a : g.Alike h) (b : h.Alike k) : g.Alike k :=
  ⟨b.cls.trans a.cls, b.mode.trans a.mode, b.desk.trans a.desk, b.mirror.trans a.mirror, b.printDue.trans a.printDue,
    a.idle ∘ b.idle⟩

theorem Still.trans (h : Still s t) (g : Still t u) : Still s u where
  signs n := (h.signs n).trans (g.signs n)
  residents n := (g.residents n).trans (h.residents n)
  states n := (g.states n).trans (h.states n)
  modes n := (g.modes n).trans (h.modes n)
  faces v := (g.faces v).trans (h.faces v)
  words d := (g.words d).trans (h.words d)

theorem Visit.face_eq (h : y.face = x.face) : y.state = x.state ∧ y.legs = x.legs ∧ y.plate = x.plate ∧ y.outcome = x.outcome := by
  simpa [Visit.face] using h

section
variable (words : ∀ d, destWords t d = destWords s d) (face : y.face = x.face)
include words face

theorem directions_of_face (n : Lane) (c : SignClass) : directions t n c y = directions s n c x := by
  obtain ⟨-, legs, plate, -⟩ := Visit.face_eq face
  have line : Leg.line t c.width = Leg.line s c.width := by
    funext l
    simp only [Leg.line, legLine, words]
  simp only [directions, directedLegs, plateLine, legs, plate, line]

theorem ticket_of_face (n : Lane) : ticket t n y = ticket s n x := by
  obtain ⟨-, legs, plate, -⟩ := Visit.face_eq face
  have line : Leg.line t 32 = Leg.line s 32 := by
    funext l
    simp only [Leg.line, legLine, words]
  simp only [ticket, directedLegs, plateLine, legs, plate, line]

theorem visitLines_of_face {g h : Sign} (alike : g.Alike h) (n : Lane) : visitLines t n h y = visitLines s n g x := by
  obtain ⟨state, -, -, outcome⟩ := Visit.face_eq face
  simp only [visitLines, state, outcome, directions_of_face words face, alike.cls, alike.desk]

end

/-- A change of nothing that a sign shows. -/
theorem Still.of_eq (signs : t.signs = s.signs) (lanes : t.lanes = s.lanes) (freeCount : t.freeCount = s.freeCount)
    (visits : t.visits = s.visits) (yard : t.yard = s.yard) : Still s t where
  signs n := by
    rw [State.sign, State.sign, signs]
    exact .refl _
  residents n := by rw [State.lane, State.lane, lanes]
  states n := by rw [State.laneState, State.laneState, State.lane, State.lane, lanes, freeCount]
  modes n := by rw [State.lane, State.lane, lanes]
  faces v := by rw [State.visit, State.visit, visits]
  words d := by cases d <;> rw [destWords, destWords, yard]

theorem Still.refl (s : State) : Still s s := .of_eq rfl rfl rfl rfl rfl

theorem Still.ite {p : Prop} [Decidable p] (ht : Still s t) (hu : Still s u) : Still s (if p then t else u) := by
  split <;> assumption

theorem Still.foldl {α : Type} {f : State → α → State} (h : ∀ s a, Still s (f s a)) (l : List α) (s : State) :
    Still s (l.foldl f s) := by
  induction l generalizing s with
  | nil => exact .refl s
  | cons a l ih => exact (h s a).trans (ih _)

theorem Still.modSign {f : Sign → Sign} (s : State) (n : Lane) (alike : (s.sign n).Alike (f (s.sign n))) :
    Still s (s.modSign n f) :=
  { Still.refl s with
    signs := fun m => by
      by_cases same : m = n
      · subst same
        rw [modSign_sign_same]
        exact alike
      · rw [modSign_sign_other _ _ same]
        exact .refl _ }

/-- The parts of a lane by which its state goes. -/
def LaneUnit.stand (l : LaneUnit) : Option (Fin 64) × Bool × Mode := (l.resident, l.releasing, l.mode)

/-- Lanes that change in nothing by which their states go. -/
theorem Still.of_lanes (signs : ∀ n, (s.sign n).Alike (t.sign n)) (lanes : ∀ n, (t.lane n).stand = (s.lane n).stand)
    (freeCount : t.freeCount = s.freeCount) (visits : t.visits = s.visits) (yard : t.yard = s.yard) : Still s t := by
  have stand (n : Lane) : (t.lane n).resident = (s.lane n).resident ∧ (t.lane n).releasing = (s.lane n).releasing
      ∧ (t.lane n).mode = (s.lane n).mode := by simpa [LaneUnit.stand] using lanes n
  refine ⟨signs, fun n => (stand n).1, fun n => ?_, fun n => (stand n).2.2, fun v => ?_, fun d => ?_⟩
  · obtain ⟨resident, releasing, mode⟩ := stand n
    rw [State.laneState, State.laneState, resident, releasing, mode, freeCount]
  · rw [State.visit, State.visit, visits]
  · cases d <;> rw [destWords, destWords, yard]

theorem Still.modLane {f : LaneUnit → LaneUnit} (s : State) (n : Lane) (stand : (f (s.lane n)).stand = (s.lane n).stand) :
    Still s (s.modLane n f) := by
  refine .of_lanes (fun _ => .refl _) (fun m => ?_) rfl rfl rfl
  by_cases same : m = n
  · subst same
    rw [modLane_lane_same, stand]
  · rw [modLane_lane_other _ _ same]

theorem Still.modVisit {f : Visit → Visit} (s : State) (v : Fin 64) (face : ∀ x, (f x).face = x.face) :
    Still s (s.modVisit v f) :=
  { Still.refl s with
    faces := fun w => by
      cases here : s.visit v with
      | none => rw [modVisit_of_closed here]
      | some x =>
        rw [modVisit_put here]
        by_cases same : w = v
        · subst same
          rw [putVisit_visit, here, Option.map_some, Option.map_some, face]
        · rw [putVisit_visit_other same] }

/-- The resident visits have the same faces. -/
theorem Still.resident (h : Still s t) (n : Lane) : (s.residentVisit n = none ∧ t.residentVisit n = none)
    ∨ ∃ v x y, s.residentVisit n = some (v, x) ∧ t.residentVisit n = some (v, y) ∧ y.face = x.face := by
  unfold State.residentVisit
  rw [h.residents]
  cases (s.lane n).resident with
  | none => exact .inl ⟨rfl, rfl⟩
  | some v =>
    have faces := h.faces v
    cases here : s.visit v with
    | none =>
      rw [here, Option.map_none, Option.map_eq_none_iff] at faces
      exact .inl ⟨by simp [here], by simp [faces]⟩
    | some x =>
      rw [here, Option.map_some] at faces
      obtain ⟨y, there, face⟩ := Option.map_eq_some_iff.1 faces
      exact .inr ⟨v, x, y, by simp [here], by simp [there], face⟩

/-- A change that no sign shows changes no content (R185 to R187). -/
theorem Still.content (h : Still s t) (n : Lane) : content t n = content s n := by
  have alike := h.signs n
  have lines : displayLines t n (t.sign n) = displayLines s n (s.sign n) := by
    simp only [displayLines, h.states, h.modes, alike.desk]
    rcases h.resident n with ⟨none_, none'⟩ | ⟨v, x, y, is, is', face⟩
    · rw [none_, none']
    · rw [is, is']
      simp only [visitLines_of_face h.words face alike]
  unfold Machine.content
  dsimp only
  rw [alike.cls, lines]
  rcases h.resident n with ⟨none_, none'⟩ | ⟨v, x, y, is, is', face⟩
  · simp only [State.residentIn, none_, none', Option.filter_none]
  · have state := (Visit.face_eq face).1
    simp only [State.residentIn, is, is', Option.filter, state]
    by_cases directing : x.state = .directing
    · simp only [directing, beq_self_eq_true, if_true, ticket_of_face h.words face]
    · simp only [beq_eq_false_iff_ne.2 directing, Bool.false_eq_true, if_false]

theorem Still.jobDue (h : Still s t) (n : Lane) (refresh : Bool) : jobDue t n refresh = jobDue s n refresh := by
  have alike := h.signs n
  simp only [Machine.jobDue, h.content, Sign.effective, alike.cls, alike.mode, alike.mirror, alike.printDue]

/-! ### What keeps the signs (R190, R191) -/

/-- No job is due at an idle sign (R191). -/
def State.QuietAt (s : State) (n : Lane) : Prop := (s.sign n).job = .idle → jobDue s n false = none

/-- A change that keeps the invariant of the signs. -/
def Keeps (s t : State) : Prop := s.SignsKept → t.SignsKept

theorem Keeps.refl (s : State) : Keeps s s := id

theorem Keeps.trans (h : Keeps s t) (g : Keeps t u) : Keeps s u := g ∘ h

theorem Keeps.ite {p : Prop} [Decidable p] (ht : Keeps s t) (hu : Keeps s u) : Keeps s (if p then t else u) := by
  split <;> assumption

theorem Still.keeps (h : Still s t) : Keeps s t := fun kept => by
  refine ⟨fun n => ?_, fun n idle => ?_⟩
  · rw [(h.signs n).mirror, (h.signs n).cls]
    exact kept.mirrors n
  · rw [h.jobDue]
    exact kept.quiet n ((h.signs n).idle idle)

theorem quietAt_of_signs (same : t = { s with signs := t.signs }) (sign : t.sign n = s.sign n) (quiet : s.QuietAt n) :
    t.QuietAt n := by
  intro idle
  rw [jobDue_of_signs same sign]
  exact quiet (sign ▸ idle)

theorem quietAt_startJobOn (s : State) (n : Lane) : (startJobOn false n s).QuietAt n := by
  intro idle
  by_cases busy : (s.sign n).job = .idle
  · cases due : jobDue s n false with
    | none => rw [startJobOn_of_none due, due]
    | some job =>
      obtain ⟨first, lines⟩ := job
      rw [startJobOn_of_due busy due] at idle
      cases idle
  · rw [startJobOn_of_busy busy] at idle
    exact absurd idle busy

/-- A change of the sign of a lane alone. -/
theorem Frames.keeps_of_sign (h : Frames s t) (same : t = { s with signs := t.signs })
    (others : ∀ m, m ≠ n → t.sign m = s.sign m) (own : s.QuietAt n → t.QuietAt n) : Keeps s t := fun kept => by
  refine ⟨fun m => h m (kept.mirrors m), fun m => ?_⟩
  by_cases is : m = n
  · subst is
    exact own (kept.quiet m)
  · exact quietAt_of_signs same (others m is) (kept.quiet m)

/-- The start of the due jobs leaves no sign with a job due (R191). -/
theorem Frames.keeps_startJobs (h : Frames s t) : Keeps s t.startJobs := fun kept => by
  refine ⟨fun n => h.trans (.startJobs t) n (kept.mirrors n), fun n => ?_⟩
  have same : t.startJobs = { Machine.startJobOn false n t with signs := t.startJobs.signs } := by
    rw [startJobOn_eq]
    exact startJobs_eq t
  exact quietAt_of_signs same (startJobs_sign t n) (quietAt_startJobOn t n)

/-- A refresh sends the whole content of a quiet display, or nothing (R194). -/
theorem Keeps.startRefresh (idle : (s.sign n).job = .idle) : Keeps s (startJobOn true n s) := by
  refine (Frames.startJobOn s true n).keeps_of_sign (startJobOn_eq true n s) (fun m other => startJobOn_other true other s)
    fun quiet => ?_
  cases due : jobDue s n true with
  | none =>
    rw [startJobOn_of_none due]
    exact quiet
  | some job =>
    intro ended
    rw [startJobOn_of_due idle due] at ended
    cases ended

/-- A refresh event at a sign (R194). -/
theorem Keeps.refreshSign (s : State) (n : Lane) : Keeps s (s.refreshSign n) := by
  unfold State.refreshSign
  split
  case h_1 => exact .refl s
  case h_2 hold =>
    have frames := Frames.modSign s n (f := fun g => { g with job := .idle }) id
    refine (frames.trans (.startJobOn _ false n)).keeps_of_sign (n := n) ?_ (fun m other => ?_) fun _ =>
      quietAt_startJobOn _ n
    · exact startJobOn_eq false n (s.modSign n fun g => { g with job := .idle })
    · rw [startJobOn_other false other, modSign_sign_other _ _ other]
  case h_3 idle =>
    split
    case h_1 => exact .refl s
    case h_2 => exact .refl s
    case h_3 => exact (Still.modSign s n ⟨rfl, rfl, rfl, rfl, rfl, id⟩).keeps
    case h_4 => exact .startRefresh idle

end Sys2Proof.Machine
end

section
/-!
PROOFS. The commands keep the Sign Units (R191): O60.
-/

namespace Sys2Proof.Machine

variable {s t u : State} {n : Lane} {v : Fin 64}

/-! ### The functions that no sign shows -/

section
variable (s : State)

theorem Still.modGrade (n : Lane) (f : GradeLane → GradeLane) : Still s (s.modGrade n f) := .of_eq rfl rfl rfl rfl rfl

theorem Still.modLink (f : Link → Link) : Still s (s.modLink f) := .of_eq rfl rfl rfl rfl rfl

theorem Still.join (c : Change) : Still s (s.join c) := .of_eq rfl rfl rfl rfl rfl

theorem Still.bookMove (h : BookMove s t) : Still s t := by
  rw [h.onBook]
  exact .of_eq rfl rfl rfl rfl rfl

theorem Still.retireDue : Still s s.retireDue := by
  have loop (minute fuel : Nat) (s : State) : Still s (retireLoop minute fuel s) := by
    induction fuel generalizing s with
    | zero => exact .refl s
    | succ fuel ih => exact .ite (Still.trans (.bookMove s .retire) (ih _)) (.refl s)
  exact loop _ _ s

theorem Still.takePlate (v : Fin 64) (t : Text) (c : Nat) : Still s (s.modVisit v fun y => y.takePlate t c) := by
  refine .modVisit s v fun x => ?_
  unfold Visit.takePlate
  split <;> rfl

theorem Still.takeContainer (v : Fin 64) (p : Pos) (t : Text) (c : Nat) :
    Still s (s.modVisit v fun y => y.takeContainer p t c) := by
  refine .modVisit s v fun x => ?_
  unfold Visit.takeContainer
  split <;> rfl

theorem Still.takeSeal (v : Fin 64) (p : Pos) (t : Text) (c : Nat) : Still s (s.modVisit v fun y => y.takeSeal p t c) := by
  refine .modVisit s v fun x => ?_
  unfold Visit.takeSeal
  split <;> rfl

theorem Still.setFlag (n : Lane) (k : FlagKind) : Still s (s.setFlag n k) := (Still.modLane s n rfl).trans (.join _ _)

theorem Still.markLoss (n : Lane) : Still s (s.markLoss n) := by
  unfold State.markLoss
  split
  · exact .modVisit s _ fun _ => rfl
  · exact .refl s

theorem Still.frameArrives (n : Lane) (chars : List RxChar) : Still s (s.frameArrives n chars) := by
  unfold State.frameArrives
  split
  · exact .setFlag s n _
  · exact (Still.setFlag s n _).trans (.markLoss _ n)
  · split
    · exact .setFlag s n _
    · exact .ite ((Still.setFlag s n _).trans (.markLoss _ n)) (.modLane s n rfl)

theorem Still.takeScan (n : Lane) (x : Visit) (c : Scan) : Still s (s.takeScan n x c) := .ite (.modGrade s n _) (.modGrade s n _)

theorem Still.requestIdent (n : Lane) (v : Fin 64) (refs : List Text) : Still s (s.requestIdent n v refs) :=
  (Still.modVisit s v (f := fun y => { y with card := .pending, unreadable := refs.any fun r => r.length != 8 })
    fun _ => rfl).trans (.of_eq rfl rfl rfl rfl rfl)

theorem Still.handOff (n : Lane) (f : LaneFrame) : Still s (s.handOff n f) := by
  unfold State.handOff
  split
  · exact .setFlag s n _
  · split
    · exact .takePlate s _ _ _
    · exact .takeContainer s _ _ _ _
    · exact .takeSeal s _ _ _ _
    · exact .takeScan s n _ _
    · exact .ite (.requestIdent s n _ _) (.setFlag s n _)

theorem Still.takeFrame (n : Lane) : Still s (s.takeFrame n) := by
  unfold State.takeFrame
  split
  · exact .refl s
  · exact .ite (.refl s) ((Still.modLane s n rfl).trans (.handOff _ n _))

/-! The engines and the grading (R9 to R11, R124, R125, R133 to R136). -/

theorem Still.grant : Still s s.grant := by
  unfold State.grant
  split
  · exact .refl s
  · split
    · unfold State.grantTo
      split
      · simp only
        split
        · exact .of_eq rfl rfl rfl rfl rfl
        · exact .refl s
      · exact .of_eq rfl rfl rfl rfl rfl
    · exact .refl s

theorem Still.gradingTake : Still s s.gradingTake := by
  unfold State.gradingTake
  split
  · exact .refl s
  · split
    · exact .refl s
    · split
      · exact .refl s
      · exact .of_eq rfl rfl rfl rfl rfl

theorem Still.clearCounts : Still s s.clearCounts := .foldl (fun t n => .modGrade t n _) _ s

theorem Still.tickBoundary : Still s s.tickBoundary := by
  obtain ⟨same, lanes, signs⟩ := tickBoundary_spec s
  refine .of_lanes (fun n => ?_) (fun n => ?_) (by rw [same]) (by rw [same]) (by rw [same])
  · rw [signs, Sign.tick_eq]
    exact ⟨rfl, rfl, rfl, rfl, rfl, id⟩
  · rw [lanes, LaneUnit.tick_eq]
    rfl

end

/-! ### The functions that end with the start of the due jobs -/

section
variable (s : State)

theorem Keeps.setSign (n : Lane) (r : SignReq) : Keeps s (s.setSign n r) := by
  unfold State.setSign
  dsimp only
  refine Frames.keeps_startJobs ?_
  split
  · unfold State.switchSign
    have switched : Frames s ((s.modSign n fun g => g.apply r).modSign n fun g =>
        { g.abandon with printDue := g.cls == .ticket && (s.modSign n fun g => g.apply r).unreported n }) := by
      intro m framed
      by_cases same : m = n
      · subst same
        rw [modSign_sign_same, modSign_sign_same]
        exact framed_unknown ((s.sign m).apply r)
      · rwa [modSign_sign_other _ _ same, modSign_sign_other _ _ same]
    exact switched.trans (.ite (.report _ n) (.refl _))
  · next stays =>
    refine .modSign s n fun framed => ?_
    have cls : ((s.sign n).apply r).cls = (s.sign n).cls := by
      by_contra other
      rw [modSign_sign_same] at stays
      exact stays (by simp [Sign.switches, Ne.symm other])
    rw [Sign.Framed, cls]
    exact framed

theorem Keeps.restart : Keeps s s.restart := by
  have lanes : Frames s (Machine.forLanes restartLane (s.modLink fun l => { l with changes := [] })) :=
    Frames.trans (t := s.modLink fun l => { l with changes := [] }) (.of_signs rfl)
      (.forLanes (fun n s => (Frames.resetLane s n .restart).trans (.modLane _ n _)) _)
  unfold State.restart
  generalize Machine.forLanes restartLane (s.modLink fun l => { l with changes := [] }) = t at lanes ⊢
  exact (lanes.trans (t := t) (u := { t with openWait := [], yard := { t.yard with queue := [] } })
    (.of_signs rfl)).keeps_startJobs

theorem Keeps.finishLeg (v : Fin 64) (i : Nat) (l : Leg) : Keeps s (s.finishLeg v i l) := by
  unfold State.finishLeg
  have converted : Frames s (s.convertLeg (s.handle v) i l) := by
    rw [convertLeg_frame]
    exact .of_signs rfl
  exact ((converted.trans (.modVisit _ v _)).trans (.retry _)).keeps_startJobs

theorem Keeps.gradingCompletes (n : Lane) (c : Scan) : Keeps s (s.gradingCompletes n c) := by
  have freed : Frames s { s with grader := { s.grader with inFlight := none } } := .of_signs rfl
  exact (((((freed.trans (.applyScan _ n c)).trans (.closeAllClosing _ n)).trans (.earlyTestOf _ _)).trans
    (.testChecking _ n)).trans (.of_signs (gradingTake_signs _))).keeps_startJobs

end

/-- A change of nothing that a sign shows. -/
theorem Keeps.of_eq (signs : t.signs = s.signs) (lanes : t.lanes = s.lanes) (freeCount : t.freeCount = s.freeCount)
    (visits : t.visits = s.visits) (yard : t.yard = s.yard) : Keeps s t :=
  (Still.of_eq signs lanes freeCount visits yard).keeps

/-! ### Requests (R203, R204) -/

/-- A command completes and keeps the signs. -/
def Hushes (s : State) (o : Host.Outcome State Fault Refusal) : Prop := ∃ t, o = .next t ∧ Keeps s t

theorem Hushes.next (h : Keeps s t) : Hushes s (.next t) := ⟨t, rfl, h⟩

theorem Hushes.live (h : Keeps s t) : Hushes s (Machine.live s t) := .next (.ite (.refl s) h)

theorem Hushes.still (h : Still s t) : Hushes s (Machine.live s t) := .live h.keeps

theorem startable_still {code : Byte} {f : ReqFrame} (h : s.startable code = some (f, t)) : Still s t := by
  obtain ⟨rest, -, -, -, -, rfl⟩ := startable_spec h
  exact .of_eq rfl rfl rfl rfl rfl

theorem takeRequest_keeps {α : Type} {code : Byte} {dec : Dec α} {serve : α → State → Answer}
    (keeps : ∀ a t, Keeps t (serve a t).state) : Keeps s (takeRequest code dec serve s) := by
  unfold takeRequest
  split
  case h_1 => exact .refl s
  case h_2 f t start =>
    split
    case h_1 => exact ((startable_still start).trans (.modLink _ _)).keeps
    case h_2 a _ => exact ((startable_still start).keeps.trans (keeps a t)).trans (.of_eq rfl rfl rfl rfl rfl)

theorem Hushes.request {α : Type} {code : Byte} {dec : Dec α} {serve : α → State → Answer}
    (keeps : ∀ a t, Keeps t (serve a t).state) : Hushes s (Machine.live s (takeRequest code dec serve s)) :=
  .live (takeRequest_keeps keeps)

/-- A request that changes nothing that a sign shows. -/
theorem Hushes.stillRequest {α : Type} {code : Byte} {dec : Dec α} {serve : α → State → Answer}
    (still : ∀ a t, Still t (serve a t).state) : Hushes s (Machine.live s (takeRequest code dec serve s)) :=
  .request fun a t => (still a t).keeps

theorem Hushes.booking {code : Byte} {dec : Dec BookReq} : Hushes s (Machine.live s (takeBooking code dec s)) := by
  refine .still ?_
  unfold takeBooking
  split
  case h_1 => exact .refl s
  case h_2 f t start =>
    split
    · exact (startable_still start).trans (.modLink _ _)
    · exact (startable_still start).trans (.modLink _ _)

theorem onLane_keeps {n : Nat} {serve : Lane → Answer} (keeps : ∀ n, Keeps s (serve n).state) :
    Keeps s (onLane n s serve).state := by
  unfold onLane
  split
  · exact .refl s
  · exact keeps _

theorem onVisit_keeps {h : Nat × Nat} {serve : Fin 64 → Visit → Answer} (keeps : ∀ v x, Keeps s (serve v x).state) :
    Keeps s (onVisit h s serve).state := by
  unfold onVisit
  split
  · exact .refl s
  · exact keeps _ _

/-! ### The owners whose requests end with the start of the due jobs -/

theorem serveLaneMode_keeps (n : Lane) (m : Mode) (s : State) : Keeps s (serveLaneMode n m s).state := by
  have moded (u : State) (k : Mode) : Frames u (u.setMode n k) := .modLane u n _
  have left (u : State) : Frames u (u.leaveWait n) := .of_signs rfl
  unfold serveLaneMode
  split
  · rw [accept_state]
    exact (moded s _).keeps_startJobs
  · split
    · rw [accept_state]
      exact ((moded s _).trans (left _)).keeps_startJobs
    · exact .refl s
  · split
    · rw [accept_state]
      exact ((Frames.modLane s n _).trans (left _)).keeps_startJobs
    · rw [accept_state]
      exact (((moded s _).trans (.stopDwell _ n)).trans (left _)).keeps_startJobs

theorem serveLaneAbort_keeps (n : Lane) (s : State) : Keeps s (serveLaneAbort n s).state := by
  unfold serveLaneAbort
  split
  · exact .refl s
  · next v _ =>
    rw [accept_state]
    exact ((Frames.abortVisit s n v).trans (.retryIf _ _)).keeps_startJobs

theorem serveLaneReset_keeps (n : Lane) (s : State) : Keeps s (serveLaneReset n s).state := by
  have closed (u : State) : Frames u ((u.leaveWait n).closeIf n) :=
    Frames.trans (t := u.leaveWait n) (.of_signs rfl) (.ite (.of_signs rfl) (.refl _))
  unfold serveLaneReset
  rw [accept_state]
  exact (((Frames.resetLane s n _).trans (closed _)).trans (.retryIf _ _)).keeps_startJobs

theorem serveVisitClose_keeps (v : Fin 64) (x : Visit) (s : State) : Keeps s (serveVisitClose v x s).state := by
  unfold serveVisitClose
  split
  · exact .refl s
  · rw [accept_state]
    exact ((Frames.closeVisit s v x).trans (.retryIf _ _)).keeps_startJobs

theorem serveDecide_keeps (d : Decision) (v : Fin 64) (x : Visit) (s : State) : Keeps s (serveDecide d v x s).state := by
  unfold serveDecide
  split
  · exact .refl s
  · split
    · exact .refl s
    · dsimp only [accept_state]
      exact (Frames.decide s _ v x d).keeps_startJobs

theorem serveBlockSet_keeps (b : Fin 48) (r : BlockReq) (s : State) : Keeps s (serveBlockSet b r s).state := by
  unfold serveBlockSet
  split
  · exact .refl s
  · dsimp only [accept_state]
    exact (Frames.trans (s := s) (t := s.modBlock b _) (.of_signs rfl) (.retryIf _ _)).keeps_startJobs

theorem serveGroupSet_keeps (g : Fin 32) (l : Option (List Nat)) (s : State) : Keeps s (serveGroupSet g l s).state := by
  unfold serveGroupSet
  split
  · exact .refl s
  · split
    · next bs _ =>
      dsimp only [accept_state]
      exact (Frames.trans (s := s) (t := { s with yard := { s.yard with groups := s.yard.groups.set g (toBlocks bs) } })
        (.of_signs rfl) (.retryIf _ _)).keeps_startJobs
    · exact .refl s

theorem serveBaySet_keeps (b : Fin 4) (r : BayReq) (s : State) : Keeps s (serveBaySet b r s).state := by
  unfold serveBaySet
  split
  · dsimp only [accept_state]
    exact (Frames.trans (s := s) (t := s.modBay b _) (.of_signs rfl) (.retryIf _ _)).keeps_startJobs
  · exact .refl s

theorem serveLegDone_keeps (i : Nat) (v : Fin 64) (x : Visit) (s : State) : Keeps s (serveLegDone i v x s).state := by
  unfold serveLegDone
  split
  · exact .refl s
  · split
    · dsimp only [accept_state]
      exact .finishLeg s v _ _
    · exact .refl s

theorem serveSignSet_keeps (n : Lane) (r : SignReq) (s : State) : Keeps s (serveSignSet n r s).state := by
  have set := Keeps.setSign s n r
  unfold serveSignSet
  generalize s.setSign n r = t at set
  dsimp only [accept_state]
  split
  · exact set.trans (Still.modSign t n ⟨rfl, rfl, rfl, rfl, rfl, id⟩).keeps
  · exact set

/-! ### The owners of the other requests -/

theorem servePointWrite_still (n : Lane) (r : PointReq) (s : State) : Still s (servePointWrite n r s).state := by
  unfold servePointWrite
  split
  · split
    · dsimp only [accept_state]
      exact .modLane s n rfl
    · exact .refl s
  · exact .refl s

theorem serveCheckSet_still (r : Option Nat × Option Nat) (s : State) : Still s (serveCheckSet r s).state := by
  unfold serveCheckSet
  split
  · exact .refl s
  · exact .of_eq rfl rfl rfl rfl rfl

theorem serveSealSet_still (r : Option Nat × Option Bool) (s : State) : Still s (serveSealSet r s).state := by
  unfold serveSealSet
  split
  · exact .refl s
  · exact .of_eq rfl rfl rfl rfl rfl

theorem serveMixSet_still (r : MixReq) (s : State) : Still s (serveMixSet r s).state := by
  unfold serveMixSet
  dsimp only
  split
  · exact .refl s
  · split
    · exact .refl s
    · exact .of_eq rfl rfl rfl rfl rfl

theorem serveBlockQuery_still (r : Option Nat) (s : State) : Still s (serveBlockQuery r s).state := by
  unfold serveBlockQuery
  split
  · exact .refl s
  · split <;> exact .refl s

theorem serveLaneSet_still (n : Lane) (r : LimitsReq) (s : State) : Still s (serveLaneSet n r s).state := by
  unfold serveLaneSet
  dsimp only [accept_state]
  exact .modLane s n rfl

theorem serveFlagsClear_still (n : Lane) (mask : Nat) (s : State) : Still s (serveFlagsClear n mask s).state := by
  unfold serveFlagsClear
  dsimp only [accept_state]
  exact .modLane s n rfl

theorem serveChangeNext_still (s : State) : Still s (serveChangeNext s).state := by
  unfold serveChangeNext
  split
  · exact .refl s
  · exact .of_eq rfl rfl rfl rfl rfl

theorem serveTickSet_still (r : Option Nat × Option Nat) (s : State) : Still s (serveTickSet r s).state := by
  unfold serveTickSet
  split
  · exact .of_eq rfl rfl rfl rfl rfl
  · exact .refl s

theorem serveWindowQuery_still (start : Option Nat) (s : State) : Still s (serveWindowQuery start s).state := by
  unfold serveWindowQuery
  split
  · split
    · exact .refl s
    · exact .of_eq rfl rfl rfl rfl rfl
  · split <;> exact .refl s

theorem serveAllowances_still (a : AllowanceReq) (s : State) : Still s (serveAllowances a s).state := by
  unfold serveAllowances
  split
  · exact .refl s
  · have replaced : Still s { s with ring := s.ring.setAllowances a } := .bookMove s (.allowances a)
    exact .ite (replaced.trans (.retireDue _)) replaced

/-! ### Transfers, time and power -/

theorem writeTransfer_still (bytes : List Byte) : Still s (s.writeTransfer bytes) := by
  unfold State.writeTransfer
  dsimp only
  split
  · exact .modLink s _
  · split
    · exact (Still.modLink s _).trans (.modLink _ _)
    · split
      · exact (Still.modLink s _).trans (.modLink _ _)
      · exact (Still.modLink s _).trans (.modLink _ _)

theorem readTransfer_still (clocked : Nat) : Still s (s.readTransfer clocked) := by
  unfold State.readTransfer
  split
  · exact .of_eq rfl rfl rfl rfl rfl
  · split
    · exact .modLink s _
    · exact .modLink s _

theorem keeps_poweredOn (s : State) : Keeps s s.poweredOn := fun _ => by
  have kept : State.reset.SignsKept := resetHasTheInvariants.2.2.2.2.2.2.2.2
  exact (Still.of_eq (s := State.reset) (t := s.poweredOn) rfl rfl rfl rfl rfl).keeps kept

theorem idle_still : Still s s.idle := by
  unfold State.idle
  split
  · exact .refl s
  · split
    · exact .tickBoundary s
    · exact .of_eq rfl rfl rfl rfl rfl

theorem takeTimeSet_still : Still s (takeTimeSet s) := by
  unfold takeTimeSet
  split
  case h_1 => exact .refl s
  case h_2 f t start =>
    have started := startable_still start
    split
    · exact started.trans (.modLink _ _)
    · split
      · exact started.trans (.modLink _ _)
      · dsimp only
        have set (b : TimeBase) : Still t { t with time := b } := .of_eq rfl rfl rfl rfl rfl
        split
        · exact (started.trans (set _)).trans (.modLink _ _)
        · exact (started.trans (set _)).trans (.modLink _ _)

theorem finish_still (e : Execution) (r : Result) (fields : List Byte) : Still s (s.finish e r fields) := .modLink s _

theorem catchUpStep_still (e : Execution) (minute retired : Nat) : Still s (s.catchUpStep e minute retired) := by
  have retires : Still s s.retireOne := .bookMove s .retire
  unfold State.catchUpStep
  dsimp only
  split
  · split
    · exact retires.trans (.modLink _ _)
    · exact retires.trans (finish_still _ _ _)
  · exact finish_still _ _ _

theorem completeHost_still (e : Execution) (req : BookReq) : Still s (s.completeHost e req) := by
  have freed : Still s s.engineFree := .of_eq rfl rfl rfl rfl rfl
  have completes : Still s.engineFree (completeBooking s.engineFree req).state := .bookMove _ (.complete req)
  exact ((freed.trans completes).trans (finish_still e _ _)).trans (.grant _)

/-! ### Every command -/

theorem execLoopEvent_hushes (n : Lane) (p : Loop) (level : Bool) : Hushes s (execLoopEvent n p level s) := by
  refine .next ?_
  split
  · exact .refl s
  · split
    · exact (Still.of_eq (s := s) (t := s.setLoop n p level) rfl rfl rfl rfl rfl).keeps
    · exact (Frames.trans (s := s) (t := s.setLoop n p level) (.of_signs rfl) (.takeLoop _ n p level)).keeps_startJobs

theorem execIdentificationComplete_hushes : Hushes s (execIdentificationComplete s) := by
  refine .live ?_
  split
  · next n op _ =>
    exact (Frames.trans (s := s) (t := s.engineFree) (.of_signs rfl) ((Frames.identify _ op).trans
      (.of_signs (grant_signs _)))).keeps_startJobs
  · exact .refl s
  · exact .refl s

/-- An expiry that is due at a visit, or is not (R74, R75, R157, R175). -/
theorem expiry_keeps {st : VisitState} {k : LimitKind} {f : Fin 64 → Visit → State} (frames : ∀ v x, Frames s (f v x)) :
    Keeps s (match s.expiring n st k with
      | some (v, x) => (f v x).startJobs
      | none => s) := by
  split
  · exact (frames _ _).keeps_startJobs
  · exact .refl s

theorem execMinuteEvent_hushes : Hushes s (execMinuteEvent s) := by
  have given : Still s { s with time := { s.time with minuteDue := false } } := .of_eq rfl rfl rfl rfl rfl
  exact .still (.ite (.ite given (given.trans (.retireDue _))) (.refl s))

theorem execUnknownRequest_hushes : Hushes s (execUnknownRequest s) := by
  refine .still ?_
  split
  · exact .refl s
  · split
    · exact .refl s
    · split
      case h_1 => exact .refl s
      case h_2 f t start => exact (startable_still start).trans (.modLink _ _)

theorem execSignReply_hushes (n : Lane) (chars : List RxChar) : Hushes s (execSignReply n chars s) := by
  refine .live ?_
  split
  · exact (Frames.takeReply s n _).keeps_startJobs
  · exact .refl s

theorem execReplyTimerExpiry_hushes (n : Lane) : Hushes s (execReplyTimerExpiry n s) := by
  refine .live ?_
  split
  · split
    · exact (Frames.failJob s n _).keeps_startJobs
    · exact .refl s
    · exact .refl s
  · exact .refl s

/-- Every command keeps the signs. -/
theorem exec_hushes (c : Instr) (s : State) : Hushes s (exec c s) := by
  cases c with
  | requestFrameArrival bytes => exact .still (writeTransfer_still bytes)
  | readTransfer clocked => exact .still (readTransfer_still clocked)
  | transferOperationError op clocked =>
    have shifted (u : State) : Still u (u.shiftFree clocked) := .of_eq rfl rfl rfl rfl rfl
    refine .still (Still.trans ?_ (shifted _))
    split
    · exact .refl s
    · exact .modLink s _
  | linkResetAssert busy =>
    refine .next (.ite (.of_eq rfl rfl rfl rfl rfl) (.of_eq rfl rfl rfl rfl rfl))
  | linkResetRelease => exact .next (.of_eq rfl rfl rfl rfl rfl)
  | prstAssert => exact .next (.of_eq rfl rfl rfl rfl rfl)
  | powerOn => exact .next (t := s.poweredOn) (keeps_poweredOn s)
  | tickEvent => exact .still (.tickBoundary s)
  | minuteEvent => exact execMinuteEvent_hushes
  | unknownRequest => exact execUnknownRequest_hushes
  | status => exact .stillRequest fun _ t => .refl t
  | changeNext => exact .stillRequest fun _ t => serveChangeNext_still t
  | attnEnableSet | attnEnableClear => exact .stillRequest fun mask t => .of_eq rfl rfl rfl rfl rfl
  | gateRestart =>
    refine .request fun _ t => ?_
    rw [accept_state]
    exact .restart t
  | timeSet => exact .still takeTimeSet_still
  | tickSet => exact .stillRequest serveTickSet_still
  | bookCreate | bookAmend | bookCancel | bookRetire | bookQuery | bookScan => exact .booking
  | windowPlan => exact .stillRequest fun r t => .bookMove t (.plan r)
  | windowSet => exact .stillRequest fun r t => .bookMove t (.quotas r)
  | windowSetAllowances => exact .stillRequest serveAllowances_still
  | defaultQuota => exact .stillRequest fun q t => .bookMove t (.defaults q)
  | windowQuery => exact .stillRequest serveWindowQuery_still
  | laneMode => exact .request fun r t => onLane_keeps fun n => serveLaneMode_keeps n r.2 t
  | laneSet => exact .request fun r t => onLane_keeps fun n => (serveLaneSet_still n r.2 t).keeps
  | laneAbort => exact .request fun r t => onLane_keeps fun n => serveLaneAbort_keeps n t
  | laneReset => exact .request fun r t => onLane_keeps fun n => serveLaneReset_keeps n t
  | pointWrite => exact .request fun r t => onLane_keeps fun n => (servePointWrite_still n r t).keeps
  | pointRead => exact .request fun r t => onLane_keeps fun n => .refl t
  | laneFlagsClear => exact .request fun r t => onLane_keeps fun n => (serveFlagsClear_still n r.2 t).keeps
  | visitQuery => exact .request fun h t => onVisit_keeps fun _ _ => .refl t
  | visitClose => exact .request fun h t => onVisit_keeps fun v x => serveVisitClose_keeps v x t
  | visitDecide => exact .request fun r t => onVisit_keeps fun v x => serveDecide_keeps r.2 v x t
  | checkSet => exact .stillRequest serveCheckSet_still
  | sealSet => exact .stillRequest serveSealSet_still
  | mixSet => exact .stillRequest serveMixSet_still
  | graderStatus => exact .stillRequest fun clear t => .ite (.clearCounts t) (.refl t)
  | blockSet =>
    refine .request fun r t => ?_
    split
    · exact serveBlockSet_keeps _ r.2 t
    · exact .refl t
  | blockQuery => exact .stillRequest serveBlockQuery_still
  | groupSet =>
    refine .request fun r t => ?_
    split
    · exact serveGroupSet_keeps _ r.2 t
    · exact .refl t
  | baySet =>
    refine .request fun r t => ?_
    split
    · exact serveBaySet_keeps _ r.2 t
    · exact .refl t
  | legDone => exact .request fun r t => onVisit_keeps fun v x => serveLegDone_keeps r.2 v x t
  | signSet => exact .request fun r t => onLane_keeps fun n => serveSignSet_keeps n r.2 t
  | indexEngineGrant => exact .still (.grant s)
  | indexOperationComplete =>
    refine .live ?_
    split
    · exact (completeHost_still _ _).keeps
    · exact .refl s
  | identificationComplete => exact execIdentificationComplete_hushes
  | catchUpRetirement =>
    refine .live ?_
    split
    · split
      · exact (catchUpStep_still _ _ _).keeps
      · exact .refl s
    · exact .refl s
  | loopEvent n p level => exact execLoopEvent_hushes n p level
  | laneFrameArrival n chars => exact .still (.frameArrives s n chars)
  | laneFrameTake n => exact .still (.takeFrame s n)
  | approachLimitExpiry n => exact .live (expiry_keeps fun v _ => .approachExpires s n v)
  | settleExpiry n => exact .live (expiry_keeps fun v x => .settleExpires s n v x)
  | cardLimitExpiry n => exact .live (expiry_keeps fun v _ => .cardExpires s n v)
  | holdTimeout n => exact .live (expiry_keeps fun v x => .holdExpires s n v x)
  | yardWaitLimitExpiry n => exact .live (expiry_keeps fun v _ => .yardWaitExpires s n v)
  | clearLimitExpiry n =>
    exact .still (.ite (((Still.modLane s n rfl).trans (.modLane _ n rfl)).trans (.join _ _)) (.refl s))
  | refreshEvent n => exact .live (.ite ((Still.modLane s n rfl).keeps.trans (.refreshSign _ n)) (.refl s))
  | replyTimerExpiry n => exact execReplyTimerExpiry_hushes n
  | signReply n chars => exact execSignReply_hushes n chars
  | gradingEngineTake => exact .still (.gradingTake s)
  | gradingCompletion =>
    refine .live ?_
    split
    · exact .gradingCompletes s _ _
    · exact .refl s
  | frameCutShort n => exact .still (.setFlag s n _)

/-- Every step keeps the signs. -/
theorem step_keepsTheSigns (h : step s = .next t) : Keeps s t := by
  unfold step at h
  split at h
  case h_1 =>
    obtain rfl := Host.Outcome.next.inj h
    exact idle_still.keeps
  case h_2 c rest _ =>
    have taken : Still s { s with pending := rest } := .of_eq rfl rfl rfl rfl rfl
    obtain ⟨u, done, keeps⟩ := exec_hushes c { s with pending := rest }
    obtain rfl := Host.Outcome.next.inj (done.symm.trans h)
    exact taken.keeps.trans keeps

end Sys2Proof.Machine

open Sys2Proof Sys2Proof.Machine in
/-- Settles O60, by a walk over the commands: each changes nothing that a sign shows, ends with the start of the due jobs, or
is a refresh event at one sign. -/
theorem stepKeepsTheSigns : Obligations.StepKeepsTheSigns := fun _ _ h => step_keepsTheSigns h
end
